-- ==== Sys2Proof/Word.lean ====
section
/-! DEFINITION. The words of the block: 00_scope.md rules R12 and R13. A byte is an unsigned 8-bit number, a
register an unsigned 32-bit number; a digest is 32 bytes, a buffer a fixed number of bytes. -/

namespace Sys2Proof

/-- A byte: 8 bits, unsigned (R12). -/
abbrev Byte := BitVec 8

/-- A requester-visible register or an accumulator: 32 bits, unsigned (R7 `REG_W`, R6 `ACC_W`, R13). -/
abbrev Word := BitVec 32

/-- A byte sequence of any length, element 0 first (R12). -/
abbrev Bytes := List Byte

/-- A buffer of `n` bytes, byte 0 first. Every address of it holds a byte, so equal buffers are equal data. -/
abbrev Buffer (n : Nat) := Vector Byte n

/-- What the hash unit returns: 32 bytes (R6 `DIGEST_LEN`). -/
abbrev Digest := Buffer 32

/-- The type of the hash primitive: total on byte sequences of every length (R8, R120). -/
abbrev Hash := Bytes → Digest

end Sys2Proof
end

