-- ==== Sys2Proof/Config.lean ====
section
/-! DEFINITION. What is fixed for one machine: the constants of 00_scope.md rule R6 and the decided parameters
of R7, the hash primitive (a parameter, R8 and R120) and the free values of a reset (R50, R270; U6).
The opaque constants have no body that anything could evaluate: a claim about them holds for every value. -/

namespace Sys2Proof.Config

/-- `HDR_A_LEN` (R6): bytes in a Variant A header. -/
@[simp] abbrev hdrALen : Nat := 217

/-- `HDR_B_LEN` (R6): bytes in a Variant B header. -/
@[simp] abbrev hdrBLen : Nat := 64

/-- `NW_CAP` (R7) and `NONCE_BW_LEN` (R6): bytes in the wide nonce. -/
@[simp] abbrev wideLen : Nat := 32

/-- `NONCE_A_OFF` (R6): first byte of the nonce in a Variant A header. -/
@[simp] abbrev nonceAOff : Nat := 117

/-- `NONCE_BN_OFF` (R6): first byte of the narrow nonce in a Variant B header. -/
@[simp] abbrev nonceBNarrowOff : Nat := 28

/-- `NONCE_BW_OFF` (R6): first byte of the wide nonce in a Variant B header. -/
@[simp] abbrev nonceBWideOff : Nat := 0

/-- `WP_OFF` (R6): first byte of the embedded work-par digest in a Variant A header. -/
@[simp] abbrev workParOff : Nat := 185

/-- `ROUNDS` (R6): rounds of the diffusion loop, and `ACC_COUNT` accumulators, one per round. -/
@[simp] abbrev rounds : Nat := 32

/-- `LANES` (R6): multiply-accumulate terms of one round. -/
@[simp] abbrev lanes : Nat := 32

/-- The hash primitive `H` (R8, R120; U7 `parameter`): total and deterministic, 32 bytes out, nothing else known
of it. Log entry 1. -/
opaque hash : Hash

/-- The byte registers a reset leaves unspecified (R50). -/
inductive ByteReg where
  | hbuf | nbuf | wbuf | obuf | row | col | wp | d1 | d2
  deriving DecidableEq, Repr

/-- FREE VALUE: byte `k` of register `r` after the `n`-th assertion of RST (R50 "unspecified, every byte"; R270;
U6 `any value`). Log entry 3. -/
opaque resetByte (n : Nat) (r : ByteReg) (k : Nat) : Byte

/-- FREE VALUE: accumulator `k` after the `n`-th assertion of RST (R50 "unspecified, every word"). Log entry 3. -/
opaque resetAcc (n k : Nat) : Word

/-- FREE VALUE: the round counter I after the `n`-th assertion of RST (R50), within the values 0 to 32 that R29
allows it. Log entry 3. -/
opaque resetI (n : Nat) : Fin 33

/-- FREE VALUE: the lane counter J after the `n`-th assertion of RST (R50), within 0 to 32 (R29). Log entry 3. -/
opaque resetJ (n : Nat) : Fin 33

end Sys2Proof.Config
end

