-- ==== Sys2Proof/Syntax.lean ====
section
/-! DEFINITION. The instructions: the nineteen rows of spec/opcode_table.json, one constructor each, and the two
formats their codes come in (30_encoding.md rule R90). No instruction has an operand field (R91, R101): a command
finds its operands in fixed places (R94), a micro-operation works on what its phase fixes. -/

namespace Sys2Proof

/-- The seven commands (format `CMD`, R92) and the twelve phase micro-operations (format `PHASE`, R100). -/
inductive Instr where
  /-- `GET_WORK_PAR_A` (41_diffusion_engine.md R153) -/
  | getWorkParA
  /-- `ELEM_ITER_A` (43_sequencer.md R214) -/
  | elemIterA
  /-- `INSERT_NONCE_A` (42_header_codec.md R178) -/
  | insertNonceA
  /-- `MATMUL_WORK_B` (41_diffusion_engine.md R154) -/
  | matmulWorkB
  /-- `ELEM_ITER_B` (43_sequencer.md R215) -/
  | elemIterB
  /-- `INSERT_NONCE_B_NARROW` (42_header_codec.md R179) -/
  | insertNonceBNarrow
  /-- `INSERT_NONCE_B_WIDE` (42_header_codec.md R180) -/
  | insertNonceBWide
  /-- `IDLE` (43_sequencer.md R213) -/
  | idle
  /-- `CHECK` (43_sequencer.md R201) -/
  | check
  /-- `COPY` (42_header_codec.md R172) -/
  | copy
  /-- `PATCH` (42_header_codec.md R173) -/
  | patch
  /-- `SEED` (41_diffusion_engine.md R141) -/
  | seed
  /-- `CHAIN` (41_diffusion_engine.md R142) -/
  | chain
  /-- `MAC` (41_diffusion_engine.md R143) -/
  | mac
  /-- `COMPRESS` (41_diffusion_engine.md R144) -/
  | compress
  /-- `SPLICE` (42_header_codec.md R177) -/
  | splice
  /-- `HASH1` (43_sequencer.md R205) -/
  | hash1
  /-- `HASH2` (43_sequencer.md R206) -/
  | hash2
  /-- `RESPOND` (43_sequencer.md R212) -/
  | respond
  deriving DecidableEq, Repr

/-- A code of one of the two fixed-length formats (R90): the 32-bit word written to register 0, or the 4-bit
value of the PHASE register. -/
inductive Code where
  | cmd (w : Word)
  | phase (p : BitVec 4)
  deriving DecidableEq, Repr

end Sys2Proof
end

