-- ==== Sys2Proof/WellFormed.lean ====
section
/-! DEFINITION. What is a legal instruction and a legal code. An instruction has no operand (R91, R101), so every
term of `Instr` is well-formed; what can be ill-formed is a code: 30_encoding.md rule R93 for a command word, R100 for
a PHASE value. -/

namespace Sys2Proof

/-- Every constructor is a legal instruction with no operand to check (R91 "The word carries no operand", R101). -/
def Instr.wellFormed : Instr → Bool
  | .getWorkParA | .elemIterA | .insertNonceA | .matmulWorkB | .elemIterB | .insertNonceBNarrow | .insertNonceBWide
  | .idle | .check | .copy | .patch | .seed | .chain | .mac | .compress | .splice | .hash1 | .hash2 | .respond => true

/-- R92: "`w` is legal if and only if `w` is one of the numbers 1 to 7". R100: PHASE values 12 to 15 are reserved. -/
def Code.wellFormed : Code → Bool
  | .cmd w => w.extractLsb' 4 28 == 0 && 1 ≤ (w.extractLsb' 0 4).toNat && (w.extractLsb' 0 4).toNat ≤ 7
  | .phase p => p.toNat < 12

end Sys2Proof
end

