-- ==== Sys2Proof/Decode.lean ====
section
/-! DEFINITION. The decoder and the encoder, both from the tables of 30_encoding.md rules R92 and R100 (and
opcode_table.json). Decoding is total: each of the 2^32 command words and of the 16 PHASE values gives an instruction
or is rejected by name. -/

namespace Sys2Proof

/-- Why a code is no instruction. -/
inductive DecodeError where
  /-- a command word with one of bits 31:4 set (R91, R93) -/
  | reservedBits
  /-- a command word with OP 0 or 8 to 15 (R92, R93) -/
  | reservedOpcode
  /-- a PHASE value 12 to 15 (R100) -/
  | reservedPhase
  deriving DecidableEq, Repr

/-- The PHASE values (R100). -/
@[simp] abbrev Phase.idle : BitVec 4 := 0#4
@[simp] abbrev Phase.check : BitVec 4 := 1#4
@[simp] abbrev Phase.copy : BitVec 4 := 2#4
@[simp] abbrev Phase.patch : BitVec 4 := 3#4
@[simp] abbrev Phase.seed : BitVec 4 := 4#4
@[simp] abbrev Phase.chain : BitVec 4 := 5#4
@[simp] abbrev Phase.mac : BitVec 4 := 6#4
@[simp] abbrev Phase.compress : BitVec 4 := 7#4
@[simp] abbrev Phase.splice : BitVec 4 := 8#4
@[simp] abbrev Phase.hash1 : BitVec 4 := 9#4
@[simp] abbrev Phase.hash2 : BitVec 4 := 10#4
@[simp] abbrev Phase.respond : BitVec 4 := 11#4

/-- The OP field of a command word, bits 3:0 (R91). -/
def opField (w : Word) : BitVec 4 := w.extractLsb' 0 4

/-- The reserved field of a command word, bits 31:4, which must be 0 (R91). -/
def reservedField (w : Word) : BitVec 28 := w.extractLsb' 4 28

/-- A command word (R92); anything else is illegal (R93). -/
def decodeCmd (w : Word) : Except DecodeError Instr :=
  if reservedField w ≠ 0#28 then .error .reservedBits
  else
    match (opField w).toNat with
    | 1 => .ok .getWorkParA
    | 2 => .ok .elemIterA
    | 3 => .ok .insertNonceA
    | 4 => .ok .matmulWorkB
    | 5 => .ok .elemIterB
    | 6 => .ok .insertNonceBNarrow
    | 7 => .ok .insertNonceBWide
    | _ => .error .reservedOpcode

/-- A PHASE value (R100); 12 to 15 are reserved. -/
def decodePhase (p : BitVec 4) : Except DecodeError Instr :=
  match p.toNat with
  | 0 => .ok .idle
  | 1 => .ok .check
  | 2 => .ok .copy
  | 3 => .ok .patch
  | 4 => .ok .seed
  | 5 => .ok .chain
  | 6 => .ok .mac
  | 7 => .ok .compress
  | 8 => .ok .splice
  | 9 => .ok .hash1
  | 10 => .ok .hash2
  | 11 => .ok .respond
  | _ => .error .reservedPhase

/-- The decoder over both formats (R90). -/
def decode : Code → Except DecodeError Instr
  | .cmd w => decodeCmd w
  | .phase p => decodePhase p

/-- The encoder: the command word of R92 or the PHASE value of R100. -/
def encode : Instr → Code
  | .getWorkParA => .cmd 0x00000001#32
  | .elemIterA => .cmd 0x00000002#32
  | .insertNonceA => .cmd 0x00000003#32
  | .matmulWorkB => .cmd 0x00000004#32
  | .elemIterB => .cmd 0x00000005#32
  | .insertNonceBNarrow => .cmd 0x00000006#32
  | .insertNonceBWide => .cmd 0x00000007#32
  | .idle => .phase 0x0#4
  | .check => .phase 0x1#4
  | .copy => .phase 0x2#4
  | .patch => .phase 0x3#4
  | .seed => .phase 0x4#4
  | .chain => .phase 0x5#4
  | .mac => .phase 0x6#4
  | .compress => .phase 0x7#4
  | .splice => .phase 0x8#4
  | .hash1 => .phase 0x9#4
  | .hash2 => .phase 0xA#4
  | .respond => .phase 0xB#4

/-- The code a row of opcode_table.json gives: format `PHASE` rows have 4 bits (one whole byte), format `CMD` rows
32. A number too wide for its format is no code. -/
def tableCode (nbits w : Nat) : Option Code :=
  if nbits ≤ 8 then
    if w < 16 then some (.phase (BitVec.ofNat 4 w)) else none
  else
    if w < 2 ^ 32 then some (.cmd (BitVec.ofNat 32 w)) else none

/-- The instruction the decoder reads from a row of opcode_table.json with its bits numbered as the table numbers
them. -/
def decodeTableWord (nbits w : Nat) : Option Instr :=
  match tableCode nbits w with
  | none => none
  | some c =>
    match decode c with
    | .ok i => some i
    | .error _ => none

end Sys2Proof
end

