-- ==== Sys2Proof/Machine/State.lean ====
section
/-! DEFINITION. The state of one instance of the block (10_state.md rule R20: the registers of R21 to R33, "Nothing
else is state"), the held writes of R41 and the reset input of R270, and the model's own fields: what the requester
and the reset input do next, what the requester's reads returned, and the count that draws a reset's free values. -/

namespace Sys2Proof.Machine

/-- A write to a requester register: the number 0 to 15 and the 32-bit value (R40 `RegWrite(n, v)`). -/
structure RegWrite where
  n : Fin 16
  v : Word
  deriving DecidableEq, Repr

/-- One requester access (R40, R47). -/
inductive Access where
  | regRead (n : Fin 16)
  | regWrite (w : RegWrite)
  | outRead (k : Fin 256)
  deriving DecidableEq, Repr

/-- Who moves next (R9, R10): the requester with one access, the sequencer, or the reset input RST (R270). -/
inductive Turn where
  | access (a : Access)
  | sequencer
  | assertReset
  | releaseReset
  deriving DecidableEq, Repr

/-- What one read of the requester returned (R221: "the sequence of values its reads returned"). -/
inductive Observation where
  | reg (n : Fin 16) (v : Word)
  | out (k : Fin 256) (b : Byte)
  deriving DecidableEq, Repr

/-- One instance of the block and its environment. -/
structure State where
  /-- HBUF, header input buffer (R21) -/
  hbuf : Buffer 217
  /-- HLEN, bytes pushed to the header (R21) -/
  hlen : Word
  /-- NBUF, wide-nonce input buffer (R22) -/
  nbuf : Buffer 32
  /-- NLEN, bytes pushed to the wide nonce (R22) -/
  nlen : Word
  /-- NONCE, narrow nonce (R23) -/
  nonce : Word
  /-- CMDR, latched command word (R24) -/
  cmdr : Word
  /-- PHASE, the block's program counter (R31) -/
  phase : BitVec 4
  /-- WBUF, work buffer (R25) -/
  wbuf : Buffer 217
  /-- ROW, the seed (R26) -/
  row : Digest
  /-- COL, the working column (R27) -/
  col : Digest
  /-- ACC, the accumulator file (R28) -/
  acc : Vector Word 32
  /-- I, the round counter (R29) -/
  i : BitVec 6
  /-- J, the lane counter (R29) -/
  j : BitVec 6
  /-- WP, the work-par digest (R30) -/
  wp : Digest
  /-- D1, digest1 (R30) -/
  d1 : Digest
  /-- D2, digest2, the final digest (R30) -/
  d2 : Digest
  /-- VALID (R32) -/
  valid : Bool
  /-- ERR (R32) -/
  err : Bool
  /-- ERRCODE (R32, R99) -/
  errcode : BitVec 2
  /-- EXPECTED (R32) -/
  expected : Word
  /-- ACTUAL (R32) -/
  actual : Word
  /-- OBUF, output buffer (R33) -/
  obuf : Buffer 217
  /-- OLEN, valid bytes of OBUF (R32) -/
  olen : BitVec 8
  /-- the writes held while a command runs, first issued first (R41) -/
  held : List RegWrite
  /-- the level of the reset input RST (R270) -/
  rst : Bool
  /-- MODEL: who moves next, the next one first; when it is empty the sequencer moves (log entry 4) -/
  turns : List Turn
  /-- MODEL: what the requester's reads have returned, the oldest first (R221, log entry 4) -/
  observed : List Observation
  /-- MODEL: how often RST was asserted, which draws the free values of a reset (log entry 3) -/
  resets : Nat
  deriving DecidableEq, Repr

/-- Why a step stops. A command that fails is no fault (R11): it completes with ERR set. -/
inductive Fault where
  /-- raised by `step`: PHASE holds 12 to 15, which no rule writes (R100, R202; U5: "`stuck` by convention"). Safe:
  the machine stops. -/
  | reservedPhase
  /-- raised by MAC: I or J is not in 0 to 31, which R143 requires on entry and R29 and R73 exclude (no accumulator
  and no byte has that index). Safe: the machine stops. -/
  | indexOutOfRange
  deriving DecidableEq, Repr

/-- Why an instruction has no meaning. -/
inductive Refusal where
  /-- raised by `exec`'s arm of an instruction that has no meaning yet; none is left. Safe: the machine stops. -/
  | notModelled (mnemonic : String)
  deriving DecidableEq, Repr

/-- The block right after reset, RST released (R50, R270). The registers R50 leaves unspecified hold 0: DESIGN CHOICE,
log entry 2. Nothing is held, and the requester has done nothing yet. -/
def State.reset : State where
  hbuf := Vector.replicate 217 0
  hlen := 0
  nbuf := Vector.replicate 32 0
  nlen := 0
  nonce := 0
  cmdr := 0
  phase := Phase.idle
  wbuf := Vector.replicate 217 0
  row := Vector.replicate 32 0
  col := Vector.replicate 32 0
  acc := Vector.replicate 32 0
  i := 0
  j := 0
  wp := Vector.replicate 32 0
  d1 := Vector.replicate 32 0
  d2 := Vector.replicate 32 0
  valid := false
  err := false
  errcode := 0
  expected := 0
  actual := 0
  obuf := Vector.replicate 217 0
  olen := 0
  held := []
  rst := false
  turns := []
  observed := []
  resets := 0

end Sys2Proof.Machine
end

