-- ==== Sys2Proof/Machine/Operands.lean ====
section
/-! DEFINITION. Operand forms: the derived values of 10_state.md rule R34 (OP, VARIANT, L, SER), slices of buffers
(00_scope.md R12, R14), the byte order of 20_memory.md R63 to R65 and the multiply-accumulate operands of 30_encoding.md
R97. -/

namespace Sys2Proof.Machine

/-- The bytes `b[lo..hi)` of a buffer (R12; `MemRead` of R14). -/
def slice {n : Nat} (b : Buffer n) (lo hi : Nat) : Bytes := (b.toList.take hi).drop lo

/-- `l` with the sequence `s` laid over it from position `lo` on: the length stays, no other element changes. -/
def overlay : Bytes → Nat → Bytes → Bytes
  | [], _, _ => []
  | b :: bs, lo + 1, s => b :: overlay bs lo s
  | b :: bs, 0, [] => b :: bs
  | _ :: bs, 0, x :: xs => x :: overlay bs 0 xs

theorem length_overlay : ∀ (l : Bytes) (lo : Nat) (s : Bytes), (overlay l lo s).length = l.length
  | [], _, _ => rfl
  | _ :: bs, lo + 1, s => congrArg (· + 1) (length_overlay bs lo s)
  | _ :: _, 0, [] => rfl
  | _ :: bs, 0, _ :: xs => congrArg (· + 1) (length_overlay bs 0 xs)

/-- `BUF[lo..lo+len(s)) <- s` (R14): "no other byte of `BUF` changes". -/
def writeBytes {n : Nat} (b : Buffer n) (lo : Nat) (s : Bytes) : Buffer n :=
  ⟨(overlay b.toList lo s).toArray, by simp [length_overlay]⟩

/-- `be32(v)` (R13, R64): the four bytes of a 32-bit number, most significant first. -/
def be32 (v : Word) : Bytes :=
  [v.extractLsb' 24 8, v.extractLsb' 16 8, v.extractLsb' 8 8, v.extractLsb' 0 8]

/-- One term of the multiply-accumulate lane (R97, R145): both bytes zero-extended, the product modulo 2^32. -/
def macTerm (r c : Byte) : Word := r.setWidth 32 * c.setWidth 32

/-- The lane (R145): `acc +32 (zext_32(r) *32 zext_32(c))`. -/
def accumulate (acc : Word) (r c : Byte) : Word := acc + macTerm r c

/-- SER (R34, R63): the accumulators as 128 bytes, accumulator 0 first, each most significant byte first. -/
def serialise (acc : Vector Word 32) : Bytes := acc.toList.flatMap be32

/-- The two header formats (R61, R62). -/
inductive Variant where
  | a
  | b
  deriving DecidableEq, Repr

/-- VARIANT of an opcode (R34; the two-way form of R201 and R222, "217 if ... in {1, 2, 3} else 64"). -/
def variantOf (op : BitVec 4) : Variant := if op = 1#4 ∨ op = 2#4 ∨ op = 3#4 then .a else .b

/-- `L` of an opcode (R34, R201): the length its header must have. -/
def headerLen (op : BitVec 4) : Nat :=
  match variantOf op with
  | .a => Config.hdrALen
  | .b => Config.hdrBLen

/-- OP, the opcode of the command that runs (R34). -/
def State.op (s : State) : BitVec 4 := opField s.cmdr

/-- The three insertion commands (R172: "`OP` in {3, 6, 7}"). -/
def isInsertion (op : BitVec 4) : Bool := op = 3#4 || op = 6#4 || op = 7#4

/-- A word that names no command (R93, R201): "`w[31:4] != 0`, or `w[3:0] = 0`, or `w[3:0] >= 8`". -/
def illegalWord (w : Word) : Bool := reservedField w != 0#28 || opField w == 0#4 || 8 ≤ (opField w).toNat

/-- The header of the command: `HBUF[0..L)` (R94). -/
def State.headerIn (s : State) : Bytes := slice s.hbuf 0 (headerLen s.op)

/-- The working copy of the header: `WBUF[0..L)` (R25). -/
def State.headerWork (s : State) : Bytes := slice s.wbuf 0 (headerLen s.op)

end Sys2Proof.Machine
end

