-- ==== Sys2Proof/Machine/Flags.lean ====
section
/-! DEFINITION. The result flags (10_state.md rules R32, R35), STATUS (R43), BUSY (R34) and DONE (R49). No arithmetic
operation sets a flag (R32). -/

namespace Sys2Proof.Machine

/-- BUSY (R34, R43): 1 while PHASE is not IDLE. -/
def State.busy (s : State) : Bool := s.phase != Phase.idle

/-- DONE, the output signal, equal to VALID at all times (R49). -/
def State.done (s : State) : Bool := s.valid

/-- One flag as a number. -/
def flag (b : Bool) : Word := if b then 1#32 else 0#32

/-- STATUS (R43): `BUSY + 2*VALID + 4*ERR + 8*ERRCODE`; bits 31:5 are 0. -/
def State.status (s : State) : Word :=
  flag s.busy + 2#32 * flag s.valid + 4#32 * flag s.err + 8#32 * s.errcode.setWidth 32

/-- What acceptance does to the result registers (R200, R35): all cleared; OBUF keeps its bytes. -/
def State.clearResults (s : State) : State :=
  { s with valid := false, err := false, errcode := 0#2, expected := 0#32, actual := 0#32, olen := 0#8 }

/-- The errors of a command (R240, R241). -/
inductive CmdError where
  | sizeMismatch (expected actual : Word)
  | illegalCmd
  deriving DecidableEq, Repr

/-- ERRCODE of an error (R99). -/
def CmdError.code : CmdError → BitVec 2
  | .sizeMismatch _ _ => 1#2
  | .illegalCmd => 2#2

end Sys2Proof.Machine
end

