-- ==== Sys2Proof/Machine/Ops.lean ====
section
/-! DEFINITION. The named operations the instructions share: the end of a step, acceptance of a command word, raising
an error and going on after it, the requester's accesses, the reset input. -/

namespace Sys2Proof.Machine

/-- What `exec` and `step` answer. -/
abbrev Result := Host.Outcome State Fault Refusal

/-- `PHASE <- p` (R14): "the block's form of `pc <- target`". -/
def State.goto (s : State) (p : BitVec 4) : State := { s with phase := p }

/-- The next turn is taken; `ts` are left. -/
def State.withTurns (s : State) (ts : List Turn) : State := { s with turns := ts }

/-- The writes held become `ws` (R41). -/
def State.withHeld (s : State) (ws : List RegWrite) : State := { s with held := ws }

/-! ### Errors -/

/-- Raising an error, in CHECK (R201, R245, R246): ERR and ERRCODE are set, `SizeMismatch` writes EXPECTED and
ACTUAL, `IllegalCmd` leaves them, and control goes to RESPOND. Nothing else is saved. -/
def State.raise (s : State) (e : CmdError) : State :=
  match e with
  | .sizeMismatch x a =>
    { s with err := true, errcode := e.code, expected := x, actual := a, phase := Phase.respond }
  | .illegalCmd => { s with err := true, errcode := e.code, phase := Phase.respond }

/-- Completion (R212), the way back from a success and from an error alike (R250: "There is nothing to return
from"): VALID is set, the inputs are consumed, the block goes idle. -/
def State.complete (s : State) : State :=
  { s with valid := true, hlen := 0#32, nlen := 0#32, phase := Phase.idle }

/-- Publishing a result (R212): `OBUF[0..len(b)) <- b; OLEN <- len(b)`. -/
def State.publish (s : State) (b : Bytes) : State :=
  { s with obuf := writeBytes s.obuf 0 b, olen := BitVec.ofNat 8 b.length }

/-! ### Requester accesses -/

/-- Acceptance of the command word `w` (R200). -/
def State.accept (s : State) (w : Word) : State :=
  { s.clearResults with cmdr := w, phase := Phase.check }

/-- `min(c + 1, 2^32 - 1)` (R46): the counters saturate. -/
def countUp (c : Word) : Word := BitVec.ofNat 32 (min (c.toNat + 1) (2 ^ 32 - 1))

/-- HDR_PUSH (R46): the low byte is stored while there is room, and counted in any case. -/
def State.pushHeader (s : State) (v : Word) : State :=
  { s with
    hbuf := if s.hlen.toNat < 217 then writeBytes s.hbuf s.hlen.toNat [v.extractLsb' 0 8] else s.hbuf
    hlen := countUp s.hlen }

/-- NW_PUSH (R46). -/
def State.pushWide (s : State) (v : Word) : State :=
  { s with
    nbuf := if s.nlen.toNat < 32 then writeBytes s.nbuf s.nlen.toNat [v.extractLsb' 0 8] else s.nbuf
    nlen := countUp s.nlen }

/-- `RegWrite(n, v)` performed (R42, R44, R46; R43, R45, R48: a write to a read-only or reserved register changes
nothing). -/
def State.performWrite (s : State) (w : RegWrite) : State :=
  match w.n.val with
  | 0 => s.accept w.v
  | 2 => { s with nonce := w.v }
  | 8 => s.pushHeader w.v
  | 9 => s.pushWide w.v
  | _ => s

/-- `RegWrite(n, v)` as the requester issues it (R41): performed while PHASE is IDLE, else held behind the writes
that are held already. -/
def State.regWrite (s : State) (w : RegWrite) : State :=
  if s.busy then s.withHeld (s.held ++ [w]) else s.performWrite w

/-- `RegRead(n)` (R40, R42 to R45, R48): write-only and reserved registers read 0. -/
def State.regRead (s : State) (n : Fin 16) : Word :=
  match n.val with
  | 1 => s.status
  | 2 => s.nonce
  | 3 => s.hlen
  | 4 => s.nlen
  | 5 => s.expected
  | 6 => s.actual
  | 7 => s.olen.setWidth 32
  | _ => 0#32

/-- `OutRead(k)` (R47): `OBUF[k]` if `k < OLEN`, else `0x00`. -/
def State.outRead (s : State) (k : Fin 256) : Byte :=
  if k.val < s.olen.toNat then s.obuf.toList.getD k.val 0#8 else 0#8

/-- What a read does to the machine: nothing (R71); the requester has seen one more value (R221). -/
def State.observe (s : State) (o : Observation) : State := { s with observed := s.observed ++ [o] }

/-- The word the requester wrote to the command register, for the seven meanings of the commands (R105:
`CMD <mnemonic>` is `RegWrite(0, OP)`). -/
def State.issueCommand (s : State) (w : Word) : State := s.regWrite ⟨0, w⟩

/-! ### The reset input -/

/-- A buffer of free bytes after reset number `n` (R50 "unspecified, every byte"). -/
def freeBuffer (len n : Nat) (r : Config.ByteReg) : Buffer len := Vector.ofFn fun k => Config.resetByte n r k

/-- Asserting RST (R270, R50): every register with a reset value gets it, the others become unspecified (free
values), held writes are discarded (R272). -/
def State.assertReset (s : State) : State :=
  { s with
    phase := Phase.idle, cmdr := 0#32, valid := false, err := false, errcode := 0#2, expected := 0#32, actual := 0#32
    olen := 0#8, hlen := 0#32, nlen := 0#32, nonce := 0#32
    hbuf := freeBuffer 217 s.resets .hbuf
    nbuf := freeBuffer 32 s.resets .nbuf
    wbuf := freeBuffer 217 s.resets .wbuf
    obuf := freeBuffer 217 s.resets .obuf
    row := freeBuffer 32 s.resets .row
    col := freeBuffer 32 s.resets .col
    wp := freeBuffer 32 s.resets .wp
    d1 := freeBuffer 32 s.resets .d1
    d2 := freeBuffer 32 s.resets .d2
    acc := Vector.ofFn fun k => Config.resetAcc s.resets k
    i := BitVec.ofNat 6 (Config.resetI s.resets)
    j := BitVec.ofNat 6 (Config.resetJ s.resets)
    held := [], rst := true, resets := s.resets + 1 }

/-- A step while RST stays asserted (R270: "the block stays in that state and performs no access"): the turn passes
without effect, unless it releases RST. -/
def State.underReset (s : State) : State :=
  match s.turns with
  | [] => s
  | .releaseReset :: ts => { s with rst := false, turns := ts }
  | _ :: ts => { s with turns := ts }

end Sys2Proof.Machine
end

