-- ==== Sys2Proof/Machine/Codec.lean ====
section
/-! DEFINITION. The header codec's micro-operations: 42_header_codec.md rules R172 (COPY), R173 (PATCH), R177 (SPLICE),
and its five functions R171, R174 to R177. -/

namespace Sys2Proof.Machine

/-- `validate_length` (R171): the error of a buffer whose length is not the expected one. -/
def validateLength (len : Word) (expected : Nat) : Option CmdError :=
  if len.toNat = expected then none else some (.sizeMismatch (BitVec.ofNat 32 expected) len)

/-- `insert_nonce_A(h, n)` (R174). -/
def insertNonceA (h : Bytes) (n : Word) : Bytes := h.take 117 ++ be32 n ++ h.drop 121

/-- `insert_nonce_B_narrow(h, n)` (R175). -/
def insertNonceBNarrow (h : Bytes) (n : Word) : Bytes := h.take 28 ++ be32 n ++ h.drop 32

/-- `insert_nonce_B_wide(h, w)` (R176). -/
def insertNonceBWide (h w : Bytes) : Bytes := w ++ h.drop 32

/-- `insert_work_par(h, d)` (R177). -/
def insertWorkPar (h d : Bytes) : Bytes := h.take 185 ++ d

/-- COPY (R172): `WBUF[0..L) <- HBUF[0..L)`, then PATCH for an insertion command, else SEED. -/
def execCopy (s : State) : Result :=
  .next ({ s with wbuf := writeBytes s.wbuf 0 s.headerIn }.goto
    (if isInsertion s.op then Phase.patch else Phase.seed))

/-- The buffer PATCH leaves (R173). An opcode that is no insertion command writes nothing. -/
def patchedWork (s : State) : Buffer 217 :=
  if s.op = 3#4 then writeBytes s.wbuf Config.nonceAOff (be32 s.nonce)
  else if s.op = 6#4 then writeBytes s.wbuf Config.nonceBNarrowOff (be32 s.nonce)
  else if s.op = 7#4 then writeBytes s.wbuf Config.nonceBWideOff s.nbuf.toList
  else s.wbuf

/-- PATCH (R173): the nonce into WBUF, then RESPOND. -/
def execPatch (s : State) : Result := .next ({ s with wbuf := patchedWork s }.goto Phase.respond)

/-- SPLICE (R177): `WBUF[185..217) <- WP`, then HASH1. -/
def execSplice (s : State) : Result :=
  .next ({ s with wbuf := writeBytes s.wbuf Config.workParOff s.wp.toList }.goto Phase.hash1)

end Sys2Proof.Machine
end

