-- ==== Sys2Proof/Machine/Commands.lean ====
section
/-! DEFINITION. The seven commands. A command is issued by writing its word to register 0 (30_encoding.md rules R92,
R105); performed in IDLE that write is the command's acceptance, "its whole effect is 43_sequencer.md rule R200" (R42),
and the command's work is then done by the phases of R202, each a micro-operation of its own: CHECK, COPY and so on to
RESPOND. Issued while a command runs the write is held (R41). -/

namespace Sys2Proof.Machine

/-- `GET_WORK_PAR_A`, word 1 (R92, R153). -/
def execGetWorkParA (s : State) : Result := .next (s.issueCommand 0x00000001#32)

/-- `ELEM_ITER_A`, word 2 (R92, R214). -/
def execElemIterA (s : State) : Result := .next (s.issueCommand 0x00000002#32)

/-- `INSERT_NONCE_A`, word 3 (R92, R178). -/
def execInsertNonceA (s : State) : Result := .next (s.issueCommand 0x00000003#32)

/-- `MATMUL_WORK_B`, word 4 (R92, R154). -/
def execMatmulWorkB (s : State) : Result := .next (s.issueCommand 0x00000004#32)

/-- `ELEM_ITER_B`, word 5 (R92, R215). -/
def execElemIterB (s : State) : Result := .next (s.issueCommand 0x00000005#32)

/-- `INSERT_NONCE_B_NARROW`, word 6 (R92, R179). -/
def execInsertNonceBNarrow (s : State) : Result := .next (s.issueCommand 0x00000006#32)

/-- `INSERT_NONCE_B_WIDE`, word 7 (R92, R180). -/
def execInsertNonceBWide (s : State) : Result := .next (s.issueCommand 0x00000007#32)

end Sys2Proof.Machine
end

