-- ==== Sys2Proof/Machine/Diffusion.lean ====
section
/-! DEFINITION. The diffusion engine's micro-operations: 41_diffusion_engine.md rules R141 (SEED), R142 (CHAIN), R143
(MAC), R144 (COMPRESS). A hashing phase is one atomic step `DEST <- H(m)` (40_hash_adapter.md R125); its effect takes
the hash as an argument, so that it can be tried with any `H`, and the meaning gives it `Config.hash`. -/

namespace Sys2Proof.Machine

/-- SEED (R141): `ROW <- H(WBUF[0..L))`; COL is the new ROW; ACC, I and J are cleared. -/
def seedWith (hash : Hash) (s : State) : State :=
  let row := hash s.headerWork
  { s with row := row, col := row, acc := Vector.replicate 32 0#32, i := 0#6, j := 0#6 }.goto Phase.chain

/-- SEED (R141). -/
def execSeed (s : State) : Result := .next (seedWith Config.hash s)

/-- CHAIN (R142): `COL <- H(COL[0..32))`; `J <- 0`. -/
def chainWith (hash : Hash) (s : State) : State :=
  { s with col := hash s.col.toList, j := 0#6 }.goto Phase.mac

/-- CHAIN (R142). -/
def execChain (s : State) : Result := .next (chainWith Config.hash s)

/-- The accumulator file after one term (R143, R145): `ACC[I] +32 (zext_32(ROW[J]) *32 zext_32(COL[J]))`. -/
def macAcc (s : State) (hi : s.i.toNat < 32) (hj : s.j.toNat < 32) : Vector Word 32 :=
  s.acc.set s.i.toNat (accumulate s.acc[s.i.toNat] s.row[s.j.toNat] s.col[s.j.toNat])

/-- I, J and PHASE after one term (R143): the two counted loops of R210. -/
def macAdvance (s : State) : State :=
  if s.j.toNat < 31 then { s with j := s.j + 1#6 }.goto Phase.mac
  else if s.i.toNat < 31 then { s with j := 32#6, i := s.i + 1#6 }.goto Phase.chain
  else { s with j := 32#6, i := 32#6 }.goto Phase.compress

/-- MAC (R143): one term into `ACC[I]`. "On entry `0 <= I <= 31` and `0 <= J <= 31`"; outside that there is no such
accumulator or byte (R29, R73) and the machine stops. -/
def execMac (s : State) : Result :=
  if h : s.i.toNat < 32 ∧ s.j.toNat < 32 then .next (macAdvance { s with acc := macAcc s h.1 h.2 })
  else .fault .indexOutOfRange

/-- The phase COMPRESS goes to (R144). An opcode with no row leaves PHASE as it is (log entry 5). -/
def compressTarget (s : State) : BitVec 4 :=
  if s.op = 1#4 ∨ s.op = 4#4 then Phase.respond
  else if s.op = 2#4 then Phase.splice
  else if s.op = 5#4 then Phase.hash1
  else s.phase

/-- COMPRESS (R144): `WP <- H(SER[0..128))`. -/
def compressWith (hash : Hash) (s : State) : State :=
  { s with wp := hash (serialise s.acc) }.goto (compressTarget s)

/-- COMPRESS (R144). -/
def execCompress (s : State) : Result := .next (compressWith Config.hash s)

end Sys2Proof.Machine
end

