-- ==== Sys2Proof/Machine/Sequencer.lean ====
section
/-! DEFINITION. The sequencer's own micro-operations: 43_sequencer.md rules R213 (IDLE), R201 (CHECK), R205 (HASH1),
R206 (HASH2), R212 (RESPOND). -/

namespace Sys2Proof.Machine

/-- IDLE (R213): "The sequencer takes no step." -/
def execIdle (s : State) : Result := .next s

/-- The first test of CHECK that fails (R201, R248): the word, then the header's length, then for
`INSERT_NONCE_B_WIDE` the wide nonce's. -/
def checkError (w hlen nlen : Word) : Option CmdError :=
  if illegalWord w then some .illegalCmd
  else
    match validateLength hlen (headerLen (opField w)) with
    | some e => some e
    | none => if opField w = 7#4 then validateLength nlen Config.wideLen else none

/-- CHECK (R201): raise the error of the first test that fails, else go on to COPY. -/
def execCheck (s : State) : Result :=
  match checkError s.cmdr s.hlen s.nlen with
  | some e => .next (s.raise e)
  | none => .next (s.goto Phase.copy)

/-- HASH1 (R205): the spliced header for `ELEM_ITER_A`, the work digest for `ELEM_ITER_B`. Another opcode writes no
D1 (log entry 5). -/
def hash1With (hash : Hash) (s : State) : State :=
  { s with
    d1 := if s.op = 2#4 then hash s.wbuf.toList else if s.op = 5#4 then hash s.wp.toList else s.d1 }.goto Phase.hash2

/-- HASH1 (R205). -/
def execHash1 (s : State) : Result := .next (hash1With Config.hash s)

/-- HASH2 (R206): `D2 <- H(D1[0..32))`. -/
def hash2With (hash : Hash) (s : State) : State :=
  { s with d2 := hash s.d1.toList }.goto Phase.respond

/-- HASH2 (R206). -/
def execHash2 (s : State) : Result := .next (hash2With Config.hash s)

/-- What RESPOND publishes when ERR is 0 (R212, R95); nothing for an opcode with no row (log entry 5). -/
def resultBytes (s : State) : Option Bytes :=
  if s.op = 1#4 ∨ s.op = 4#4 then some s.wp.toList
  else if s.op = 2#4 ∨ s.op = 5#4 then some s.d2.toList
  else if isInsertion s.op then some s.headerWork
  else none

/-- RESPOND (R212): publish the result unless the command failed, consume the inputs, go idle. -/
def execRespond (s : State) : Result :=
  if s.err then .next s.complete
  else
    match resultBytes s with
    | some b => .next (s.publish b).complete
    | none => .next s.complete

end Sys2Proof.Machine
end

