-- ==== Sys2Proof/Machine/Dispatch.lean ====
section
/-! DEFINITION. One arm per instruction. -/

namespace Sys2Proof.Machine

def exec (i : Instr) (s : State) : Host.Outcome State Fault Refusal :=
  match i with
  | .getWorkParA => Sys2Proof.Machine.execGetWorkParA s
  | .elemIterA => Sys2Proof.Machine.execElemIterA s
  | .insertNonceA => Sys2Proof.Machine.execInsertNonceA s
  | .matmulWorkB => Sys2Proof.Machine.execMatmulWorkB s
  | .elemIterB => Sys2Proof.Machine.execElemIterB s
  | .insertNonceBNarrow => Sys2Proof.Machine.execInsertNonceBNarrow s
  | .insertNonceBWide => Sys2Proof.Machine.execInsertNonceBWide s
  | .idle => Sys2Proof.Machine.execIdle s
  | .check => Sys2Proof.Machine.execCheck s
  | .copy => Sys2Proof.Machine.execCopy s
  | .patch => Sys2Proof.Machine.execPatch s
  | .seed => Sys2Proof.Machine.execSeed s
  | .chain => Sys2Proof.Machine.execChain s
  | .mac => Sys2Proof.Machine.execMac s
  | .compress => Sys2Proof.Machine.execCompress s
  | .splice => Sys2Proof.Machine.execSplice s
  | .hash1 => Sys2Proof.Machine.execHash1 s
  | .hash2 => Sys2Proof.Machine.execHash2 s
  | .respond => Sys2Proof.Machine.execRespond s

end Sys2Proof.Machine
end

