-- ==== Sys2Proof/Machine/Step.lean ====
section
/-! DEFINITION. One atomic step (00_scope.md rule R9): a requester access, one phase micro-operation of the sequencer,
or a reset. Which of them comes next is read from `turns` (log entry 4). -/

namespace Sys2Proof.Machine

/-- The sequencer's step (R31, R202): the micro-operation PHASE names. -/
def sequencerStep (s : State) : Host.Outcome State Fault Refusal :=
  match decodePhase s.phase with
  | .ok i => exec i s
  | .error _ => .fault .reservedPhase

/-- One requester write. A command word written to CMD runs the command it names; a word that names none is accepted
all the same and fails in CHECK (R42, R93). -/
def writeStep (w : RegWrite) (s : State) : Host.Outcome State Fault Refusal :=
  if w.n = 0 then
    match decodeCmd w.v with
    | .ok i => exec i s
    | .error _ => .next (s.issueCommand w.v)
  else .next (s.regWrite w)

/-- One requester access (R41: reads are served in any phase and change nothing). -/
def accessStep (a : Access) (s : State) : Host.Outcome State Fault Refusal :=
  match a with
  | .regRead n => .next (s.observe (.reg n (s.regRead n)))
  | .outRead k => .next (s.observe (.out k (s.outRead k)))
  | .regWrite w => writeStep w s

/-- The step of the agent whose turn it is. -/
def turnStep (t : Turn) (s : State) : Host.Outcome State Fault Refusal :=
  match t with
  | .sequencer => sequencerStep s
  | .access a => accessStep a s
  | .assertReset => .next s.assertReset
  | .releaseReset => .next s

/-- One atomic step. While RST is asserted nothing is performed (R270). In IDLE the first held write is performed
before anything else but a reset (R41, R212; log entry 6). Otherwise the next turn is taken; with none left it is the
sequencer's. -/
def step (s : State) : Host.Outcome State Fault Refusal :=
  if s.rst then .next s.underReset
  else
    match s.turns, s.held with
    | .assertReset :: ts, _ => turnStep .assertReset (s.withTurns ts)
    | [], [] => sequencerStep s
    | t :: ts, [] => turnStep t (s.withTurns ts)
    | [], w :: ws => if s.busy then sequencerStep s else writeStep w (s.withHeld ws)
    | t :: ts, w :: ws =>
      if s.busy then turnStep t (s.withTurns ts) else writeStep w (s.withHeld ws)

/-- `s` with the code of a table row placed where `step` takes its next instruction: a PHASE value in PHASE with the
turn the sequencer's, a command word as the requester's next write while the block is idle (log entry 7). -/
def State.withFetchWord (s : State) (nbits w : Nat) : State :=
  match tableCode nbits w with
  | none => s
  | some (.phase p) => { s with phase := p, held := [], rst := false, turns := .sequencer :: s.turns }
  | some (.cmd c) =>
    { s with phase := Phase.idle, held := [], rst := false, turns := .access (.regWrite ⟨0, c⟩) :: s.turns }

end Sys2Proof.Machine
end

