-- ==== Sys2Proof/Machine/Function.lean ====
section
/-! DEFINITION. The block one level up: the function `WORK_PAR` (41_diffusion_engine.md rule R140) and the
command-level function `Command` (43_sequencer.md rule R222), written from those rules and not from the phases. "where a
reader finds them to differ ... the function wins" (R222). -/

namespace Sys2Proof.Machine

/-- The column of round `i` (R140 step 3a, R155): `C_0 = H(seed)`, `C_i = H(C_(i-1))`. -/
def column (hash : Hash) (seed : Digest) : Nat → Digest
  | 0 => hash seed.toList
  | i + 1 => hash (column hash seed i).toList

/-- The sum of the terms of one round (R140 step 3b), the pairs of bytes taken in the order of `j`. -/
def sumTerms (pairs : List (Byte × Byte)) : Word := pairs.foldl (fun a p => accumulate a p.1 p.2) 0#32

/-- The accumulator of a round whose column is `col` (R140 step 3b). -/
def roundSum (row col : Digest) : Word := sumTerms (row.toList.zip col.toList)

/-- The accumulators of `n` rounds from the column `col` on (R140 step 3). -/
def roundsFrom (hash : Hash) (row : Digest) : Nat → Digest → List Word
  | 0, _ => []
  | n + 1, col =>
    let col' := hash col.toList
    roundSum row col' :: roundsFrom hash row n col'

/-- `WORK_PAR(m)` (R140). -/
def workPar (hash : Hash) (m : Bytes) : Digest :=
  let row := hash m
  hash ((roundsFrom hash row 32 row).flatMap be32)

/-- The inputs of a command (R222), all as they stand at acceptance. -/
structure Inputs where
  w : Word
  hl : Word
  hb : Bytes
  n : Word
  nl : Word
  nb : Bytes
  deriving DecidableEq, Repr

/-- The response of a command (R222). -/
inductive Response where
  | ok (b : Bytes)
  | sizeMismatch (expected actual : Word)
  | illegalCmd
  deriving DecidableEq, Repr

/-- The response that reports an error (R32, R222, R240, R241). -/
def CmdError.response : CmdError → Response
  | .sizeMismatch x a => .sizeMismatch x a
  | .illegalCmd => .illegalCmd

/-- `Command(w, hl, hb, n, nl, nb)` (R222). -/
def command (hash : Hash) (x : Inputs) : Response :=
  if ¬ (1 ≤ x.w.toNat ∧ x.w.toNat ≤ 7) then .illegalCmd
  else
    let len := if x.w = 1#32 ∨ x.w = 2#32 ∨ x.w = 3#32 then 217 else 64
    if x.hl.toNat ≠ len then .sizeMismatch (BitVec.ofNat 32 len) x.hl
    else if x.w = 7#32 ∧ x.nl ≠ 32#32 then .sizeMismatch 32#32 x.nl
    else if x.w = 1#32 ∨ x.w = 4#32 then .ok (workPar hash x.hb).toList
    else if x.w = 2#32 then
      .ok (hash (hash (insertWorkPar x.hb (workPar hash x.hb).toList)).toList).toList
    else if x.w = 5#32 then .ok (hash (hash (workPar hash x.hb).toList).toList).toList
    else if x.w = 3#32 then .ok (insertNonceA x.hb x.n)
    else if x.w = 6#32 then .ok (insertNonceBNarrow x.hb x.n)
    else .ok (insertNonceBWide x.hb x.nb)

/-- The inputs the state holds for a command with the word `w` (R222): the stored part of what was pushed. -/
def State.inputs (s : State) (w : Word) : Inputs where
  w := w
  hl := s.hlen
  hb := slice s.hbuf 0 (min s.hlen.toNat 217)
  n := s.nonce
  nl := s.nlen
  nb := slice s.nbuf 0 (min s.nlen.toNat 32)

/-- The response the result registers show (R32, R222): with ERR 0 the bytes `OBUF[0..OLEN)`. -/
def State.response (s : State) : Response :=
  if s.err then
    if s.errcode = 1#2 then .sizeMismatch s.expected s.actual else .illegalCmd
  else .ok (slice s.obuf 0 s.olen.toNat)

/-- How many sequencer steps a command takes from CHECK to RESPOND (R219), one term a MAC step. -/
def commandSteps (x : Inputs) : Nat :=
  match checkError x.w x.hl x.nl with
  | some _ => 2
  | none =>
    if x.w = 1#32 ∨ x.w = 4#32 then 1061
    else if x.w = 2#32 then 1064
    else if x.w = 5#32 then 1063
    else 4

end Sys2Proof.Machine
end

