-- ==== Sys2Proof/Safety.lean ====
section
/-! DEFINITION. What a legal state is, in the terms the statements use: the control invariant `Control` (which values
PHASE, the counters, CMDR and the result registers can have together: 10_state.md rules R29, R31, R32, R35, 43_sequencer.md
R202) and the data invariant `Tracks` (what the registers hold at the phase boundaries of a command: 41_diffusion_engine.md
R151, 42_header_codec.md R173, 43_sequencer.md R222). -/

namespace Sys2Proof.Machine

/-- The lengths CHECK has established (R201, R51): every phase between CHECK and RESPOND relies on them. -/
abbrev State.checked (s : State) : Prop := checkError s.cmdr s.hlen s.nlen = none

/-- PHASE is one of COPY to HASH2: a command is past CHECK and has not failed. -/
abbrev State.working (s : State) : Prop := 2 ≤ s.phase.toNat ∧ s.phase.toNat ≤ 10

/-- The flow of control: what PHASE, the opcode, the lengths, the counters and the result registers can be together. It
says nothing of I and J outside the engine's phases, so acceptance brings it about in any idle state. -/
structure Flow (s : State) : Prop where
  /-- R31, R202: PHASE is never 12 to 15 -/
  phase_legal : s.phase.toNat ≤ 11
  /-- R143: on entry to a round's CHAIN, I is 0 to 31 -/
  chain_i : s.phase = Phase.chain → s.i.toNat ≤ 31
  /-- R143: on entry to MAC, I and J are 0 to 31 -/
  mac_ij : s.phase = Phase.mac → s.i.toNat ≤ 31 ∧ s.j.toNat ≤ 31
  /-- R202: PATCH is reached by the insertion commands only -/
  patch_op : s.phase = Phase.patch → isInsertion s.op = true
  /-- R202: SEED, CHAIN, MAC and COMPRESS are reached by the other four only -/
  engine_op : 4 ≤ s.phase.toNat → s.phase.toNat ≤ 7 → isInsertion s.op = false
  /-- R202: SPLICE is reached by `ELEM_ITER_A` only -/
  splice_op : s.phase = Phase.splice → s.op = 2#4
  /-- R202: HASH1 and HASH2 are reached by the two elementary iterations only -/
  hash_op : s.phase = Phase.hash1 ∨ s.phase = Phase.hash2 → s.op = 2#4 ∨ s.op = 5#4
  /-- R51, R73: past CHECK the word is legal and the lengths are right -/
  working_checked : s.working → s.checked
  /-- R247: a command that passes CHECK cannot fail later -/
  working_noerr : s.phase = Phase.check ∨ s.working → s.err = false
  /-- R201, R212: at RESPOND, ERR says whether CHECK failed -/
  respond_checked : s.phase = Phase.respond → (s.err = false ↔ s.checked)
  /-- R32, R35: from acceptance to RESPOND, VALID and OLEN are 0 -/
  busy_results : s.phase ≠ Phase.idle → s.valid = false ∧ s.olen = 0#8
  /-- R32, R99: ERRCODE 0 goes with ERR 0, and 3 is never written -/
  errcode_iff : s.err = false ↔ s.errcode = 0#2
  errcode_ne : s.errcode ≠ 3#2
  /-- R32: EXPECTED and ACTUAL are written on `SIZE_MISMATCH` only -/
  pair_zero : s.errcode ≠ 1#2 → s.expected = 0#32 ∧ s.actual = 0#32
  /-- R32: OLEN is 32, 64 or 217, and 0 on failure -/
  olen_legal : s.olen = 0#8 ∨ s.olen = 32#8 ∨ s.olen = 64#8 ∨ s.olen = 217#8
  err_olen : s.err = true → s.olen = 0#8
  /-- R32: a result length stands only with VALID -/
  invalid_olen : s.valid = false → s.olen = 0#8
  /-- R43: in IDLE without VALID no error stands -/
  idle_err : s.phase = Phase.idle → s.valid = false → s.err = false
  /-- R270: while RST is asserted the block is idle and holds no write -/
  rst_idle : s.rst = true → s.phase = Phase.idle ∧ s.held = []

/-- The control invariant: the flow of control, and the ranges of the two counters. -/
structure Control (s : State) : Prop extends Flow s where
  /-- R29: I takes the values 0 to 32 -/
  i_le : s.i.toNat ≤ 32
  /-- R29: J takes the values 0 to 32 -/
  j_le : s.j.toNat ≤ 32

/-- The first `n` terms of a round (R143). -/
def partialSum (row col : Digest) (n : Nat) : Word := sumTerms ((row.toList.zip col.toList).take n)

/-- The column that stands in COL before the CHAIN of round `i` (R155): the seed, then the round before's column. -/
def columnBefore (hash : Hash) (seed : Digest) : Nat → Digest
  | 0 => seed
  | i + 1 => column hash seed i

/-- The data invariant: what the registers hold in each phase of a command, as functions of the inputs. Nothing is
said in IDLE and CHECK. -/
structure Tracks (hash : Hash) (s : State) : Prop where
  /-- R172, R25: COPY made WBUF a copy of the header; only PATCH and SPLICE change it -/
  work_copy : 3 ≤ s.phase.toNat → s.phase.toNat ≤ 8 → s.headerWork = s.headerIn
  /-- R26: ROW is the seed through all the rounds -/
  row_seed : 5 ≤ s.phase.toNat → s.phase.toNat ≤ 7 → s.row = hash s.headerIn
  /-- R155: COL before the CHAIN of round I -/
  chain_col : s.phase = Phase.chain → s.col = columnBefore hash s.row s.i.toNat
  /-- R151: COL in round I -/
  mac_col : s.phase = Phase.mac → s.col = column hash s.row s.i.toNat
  /-- R151: the accumulators of the finished rounds -/
  acc_done : ∀ k (hk : k < 32), 5 ≤ s.phase.toNat → s.phase.toNat ≤ 7 → k < s.i.toNat →
    s.acc[k] = roundSum s.row (column hash s.row k)
  /-- R151: the accumulator of the round that runs -/
  acc_running : ∀ k (hk : k < 32), s.phase = Phase.mac → k = s.i.toNat →
    s.acc[k] = partialSum s.row s.col s.j.toNat
  /-- R151: the accumulators of the rounds to come -/
  acc_zero : ∀ k (hk : k < 32), (s.phase = Phase.chain ∧ s.i.toNat ≤ k) ∨ (s.phase = Phase.mac ∧ s.i.toNat < k) →
    s.acc[k] = 0#32
  /-- R151: after the last MAC, I is 32 -/
  compress_i : s.phase = Phase.compress → s.i.toNat = 32
  /-- R151: WP after COMPRESS -/
  wp_done : s.phase = Phase.splice ∨ s.phase = Phase.hash1 ∨ (s.phase = Phase.respond ∧ s.err = false ∧ (s.op = 1#4 ∨ s.op = 4#4)) →
    s.wp = workPar hash s.headerIn
  /-- R177: the spliced header before HASH1 of `ELEM_ITER_A` -/
  hash1_work : s.phase = Phase.hash1 → s.op = 2#4 → s.wbuf.toList = insertWorkPar s.headerIn (workPar hash s.headerIn).toList
  /-- R205: D1 after HASH1 -/
  hash2_d1 : s.phase = Phase.hash2 → s.d1 = hash (if s.op = 2#4
    then insertWorkPar s.headerIn (workPar hash s.headerIn).toList else (workPar hash s.headerIn).toList)
  /-- R206: D2 after HASH2 -/
  respond_d2 : s.phase = Phase.respond → s.err = false → s.op = 2#4 ∨ s.op = 5#4 → s.d2 = hash (hash (if s.op = 2#4
    then insertWorkPar s.headerIn (workPar hash s.headerIn).toList else (workPar hash s.headerIn).toList)).toList
  /-- R173: WBUF after PATCH -/
  respond_work : s.phase = Phase.respond → s.err = false → isInsertion s.op = true →
    s.headerWork = (if s.op = 3#4 then insertNonceA s.headerIn s.nonce
      else if s.op = 6#4 then insertNonceBNarrow s.headerIn s.nonce else insertNonceBWide s.headerIn s.nbuf.toList)
  /-- R201, R245, R246: the error registers at RESPOND say which test of CHECK failed -/
  respond_error : s.phase = Phase.respond → ∀ e, checkError s.cmdr s.hlen s.nlen = some e →
    s.err = true ∧ s.response = e.response

/-- `n` steps, stopping at the first fault or refusal. -/
def steps : Nat → State → Host.Outcome State Fault Refusal
  | 0, s => .next s
  | n + 1, s =>
    match step s with
    | .next t => steps n t
    | .fault r => .fault r
    | .refused r => .refused r

/-- The next phase as the table of R202 gives it, for the micro-operation that runs in `s`. The seven commands are no
phases. -/
def nextPhase (s : State) : Instr → BitVec 4
  | .idle => Phase.idle
  | .check => if checkError s.cmdr s.hlen s.nlen = none then Phase.copy else Phase.respond
  | .copy => if s.op = 3#4 ∨ s.op = 6#4 ∨ s.op = 7#4 then Phase.patch else Phase.seed
  | .patch => Phase.respond
  | .seed => Phase.chain
  | .chain => Phase.mac
  | .mac => if s.j.toNat < 31 then Phase.mac else if s.i.toNat < 31 then Phase.chain else Phase.compress
  | .compress => if s.op = 1#4 ∨ s.op = 4#4 then Phase.respond else if s.op = 2#4 then Phase.splice else Phase.hash1
  | .splice => Phase.hash1
  | .hash1 => Phase.hash2
  | .hash2 => Phase.respond
  | .respond => Phase.idle
  | .getWorkParA | .elemIterA | .insertNonceA | .matmulWorkB | .elemIterB | .insertNonceBNarrow | .insertNonceBWide =>
    Phase.check

/-- A turn that reads. -/
def Turn.isRead : Turn → Bool
  | .access (.regRead _) | .access (.outRead _) => true
  | .access (.regWrite _) | .sequencer | .assertReset | .releaseReset => false

/-- The state less what the requester has still to do and has seen: what a read cannot change (R71, R79). -/
def State.block (s : State) : State := { s with turns := [], observed := [] }

/-- What a requester can see of the block (R52): the readable registers and the readable output bytes. -/
def sameVisible (s t : State) : Prop :=
  s.busy = t.busy ∧ s.valid = t.valid ∧ s.err = t.err ∧ s.errcode = t.errcode ∧ s.nonce = t.nonce ∧
  s.hlen = t.hlen ∧ s.nlen = t.nlen ∧ s.expected = t.expected ∧ s.actual = t.actual ∧ s.olen = t.olen ∧
  ∀ k (hk : k < 217), k < s.olen.toNat → s.obuf[k] = t.obuf[k]

end Sys2Proof.Machine
end

