-- ==== Sys2Proof/Certificates/Slice0/Obligations.lean ====
section
/-! DEFINITION. The statements for the provers. Each docstring names the rules of spec/ it formalises. A frame is
written as "the next state with the written fields put back is the state before": every other register, held write,
turn and observation is unchanged. -/

open Sys2Proof Sys2Proof.Machine

/-! ### Encoding (30_encoding.md) -/

/-- Encoding an instruction and decoding the code gives the instruction back (R90, R92, R100). -/
def Obligations.EncodedInstructionDecodes : Prop :=
  ∀ i : Instr, i.wellFormed = true → (encode i).wellFormed = true ∧ decode (encode i) = .ok i

/-- No two codes mean one instruction: a code that decodes is the encoding of what it decodes to, and the codes that
are rejected are exactly the ill-formed ones, of all 2^32 command words and 16 PHASE values (R93, R100). -/
def Obligations.DecodableCodesAreTheEncodings : Prop :=
  ∀ c : Code, (∀ i, decode c = .ok i → encode i = c) ∧ ((∃ e, decode c = .error e) ↔ c.wellFormed = false)

/-- R92: the opcode map, with the header length `L` of each command; `w` is legal if and only if it is one of the
numbers 1 to 7; and R93's three-part test of an illegal word says the same. -/
def Obligations.OpcodeMap : Prop :=
  ∀ w : Word,
    (∀ i, decodeCmd w = .ok i ↔
      (w.toNat = 1 ∧ i = .getWorkParA ∨ w.toNat = 2 ∧ i = .elemIterA ∨ w.toNat = 3 ∧ i = .insertNonceA ∨
       w.toNat = 4 ∧ i = .matmulWorkB ∨ w.toNat = 5 ∧ i = .elemIterB ∨ w.toNat = 6 ∧ i = .insertNonceBNarrow ∨
       w.toNat = 7 ∧ i = .insertNonceBWide)) ∧
    (illegalWord w = false ↔ 1 ≤ w.toNat ∧ w.toNat ≤ 7) ∧
    (illegalWord w = false → (variantOf (opField w) = .a ↔ w.toNat ≤ 3) ∧
      headerLen (opField w) = if w.toNat ≤ 3 then 217 else 64)

/-- Words written out from R92 and R100: the first and last command, an illegal opcode, a set reserved bit, and the
first, a middle, the last and a reserved PHASE value. -/
def Obligations.SampleTableWords : Prop :=
  decodeTableWord 32 0b00000000000000000000000000000001 = some .getWorkParA ∧
  decodeTableWord 32 0b00000000000000000000000000000111 = some .insertNonceBWide ∧
  decodeTableWord 32 0b00000000000000000000000000001000 = none ∧
  decodeTableWord 32 0b00000000000000000000000000010001 = none ∧
  decodeTableWord 8 0b0000 = some .idle ∧
  decodeTableWord 8 0b0110 = some .mac ∧
  decodeTableWord 8 0b1011 = some .respond ∧
  decodeTableWord 8 0b1100 = none

/-! ### A step runs the decoded instruction (R9, R31) -/

/-- On the sequencer's turn, or when no turn is left, a step runs the instruction PHASE decodes to. In IDLE this asks
that no write is held. The schedule is the model's own (log entry 4). -/
def Obligations.StepRunsThePhase : Prop :=
  ∀ (s : State) (i : Instr), s.rst = false → (s.busy = true ∨ s.held = []) → decodePhase s.phase = .ok i →
    (s.turns = [] → step s = exec i s) ∧
    (∀ ts, s.turns = .sequencer :: ts → step s = exec i { s with turns := ts })

/-- On the requester's turn a write to CMD runs the command its word decodes to; the same write, held till IDLE, runs
it before any other turn but a reset (R41, R42). The schedule is the model's own (log entries 4 and 6). -/
def Obligations.StepRunsTheCommand : Prop :=
  ∀ (s : State) (i : Instr) (w : Word), s.rst = false → decodeCmd w = .ok i →
    (∀ ts, s.turns = .access (.regWrite ⟨0, w⟩) :: ts → (s.busy = true ∨ s.held = []) →
      step s = exec i { s with turns := ts }) ∧
    (∀ ws, s.held = ⟨0, w⟩ :: ws → s.busy = false → s.turns.head? ≠ some .assertReset →
      step s = exec i { s with held := ws })

/-- U5 (93_implementation_defined.md): with a PHASE of 12 to 15 the sequencer is stuck, by a fault of that name. The
fault is the model's (log entry 8). -/
def Obligations.ReservedPhaseStops : Prop :=
  ∀ s : State, s.rst = false → 12 ≤ s.phase.toNat →
    (s.turns = [] → step s = .fault .reservedPhase) ∧
    (∀ ts, s.turns = .sequencer :: ts → step s = .fault .reservedPhase)

/-! ### Commands: acceptance and holding (R41, R42, R200) -/

/-- R200: a command word written in IDLE is accepted, whatever the word: the result registers are cleared, CMDR takes
the word, PHASE goes to CHECK, nothing else changes; BUSY is 1 then and every further write is held. For each of the seven
command words this is what its instruction does. -/
def Obligations.CommandIsAcceptedInIdle : Prop :=
  ∀ (w : Word) (s : State), s.phase = Phase.idle →
    ∃ t, s.regWrite ⟨0, w⟩ = t ∧ (∀ i, encode i = .cmd w → exec i s = .next t) ∧
      t.cmdr = w ∧ t.valid = false ∧ t.err = false ∧ t.errcode = 0#2 ∧ t.expected = 0#32 ∧
      t.actual = 0#32 ∧ t.olen = 0#8 ∧ t.phase = Phase.check ∧ t.busy = true ∧ t.done = false ∧
      (∀ a, t.regWrite a = { t with held := t.held ++ [a] }) ∧
      { t with
        cmdr := s.cmdr, valid := s.valid, err := s.err, errcode := s.errcode, expected := s.expected
        actual := s.actual, olen := s.olen, phase := s.phase } = s

/-- R41: a command issued while another runs is held: its word goes to the end of the queue of held writes, nothing else
changes. All seven commands. -/
def Obligations.CommandIsHeldWhileBusy : Prop :=
  ∀ (i : Instr) (w : Word) (s : State), encode i = .cmd w → s.phase ≠ Phase.idle →
    exec i s = .next { s with held := s.held ++ [⟨0, w⟩] }

/-- R41: while a command runs, a requester write to any register, a command among them, changes nothing but the queue
of held writes, at whose end it stands. Which turn comes next is read from the model's own schedule (log entry 4). -/
def Obligations.WritesAreHeldWhileBusy : Prop :=
  ∀ (s : State) (a : RegWrite) (ts : List Turn), s.phase ≠ Phase.idle → s.rst = false →
    s.turns = .access (.regWrite a) :: ts →
    step s = .next { s with turns := ts, held := s.held ++ [a] }

/-- R41: once PHASE is IDLE the first held write is performed, exactly as if the requester issued it then, before any
turn but a reset. That this is a step of its own, before any other turn, is the model's choice (log entry 6). -/
def Obligations.HeldWriteIsPerformedInIdle : Prop :=
  ∀ (s : State) (a : RegWrite) (ws : List RegWrite), s.phase = Phase.idle → s.rst = false → s.held = a :: ws →
    s.turns.head? ≠ some .assertReset →
    step s = .next ({ s with held := ws }.performWrite a)

/-- R42, R93: every word written to CMD in IDLE is accepted, one that names no command too; such a word then ends at
CHECK with `ILLEGAL_CMD` and completes: two sequencer steps later VALID = 1, ERR = 1, ERRCODE = 2, EXPECTED = ACTUAL
= 0, OLEN = 0, the inputs consumed, no buffer and no digest register written. -/
def Obligations.IllegalWordEndsInIllegalCmd : Prop :=
  ∀ (s : State) (w : Word), ¬ (1 ≤ w.toNat ∧ w.toNat ≤ 7) → s.phase = Phase.idle → s.rst = false → s.held = [] →
    s.turns = [.access (.regWrite ⟨0, w⟩)] →
    steps 3 s = .next { s with
      turns := [], cmdr := w, valid := true, err := true, errcode := 2#2, expected := 0#32, actual := 0#32, olen := 0#8
      hlen := 0#32, nlen := 0#32 }

/-! ### The micro-operations of the sequencer (43_sequencer.md) -/

/-- R213: in IDLE the sequencer takes no step, whatever the state. -/
def Obligations.IdleChangesNothing : Prop :=
  decodePhase 0#4 = .ok .idle ∧ ∀ s : State, exec .idle s = .next s

/-- R201: the three tests of CHECK in their order, the error of the first that fails, and COPY when none does; nothing
but the error registers and PHASE is written. -/
def Obligations.CheckTestsInOrder : Prop :=
  ∀ s : State,
    let raised (t : State) (c : BitVec 2) (x a : Word) : Prop :=
      t.err = true ∧ t.errcode = c ∧ t.expected = x ∧ t.actual = a ∧ t.phase = Phase.respond ∧
      { t with err := s.err, errcode := s.errcode, expected := s.expected, actual := s.actual, phase := s.phase } = s
    let code := s.cmdr.toNat % 16
    let len := if code = 1 ∨ code = 2 ∨ code = 3 then 217 else 64
    ∃ t, exec .check s = .next t ∧
      if s.cmdr.toNat / 16 ≠ 0 ∨ code = 0 ∨ 8 ≤ code then raised t 2#2 s.expected s.actual
      else if s.hlen.toNat ≠ len then raised t 1#2 (BitVec.ofNat 32 len) s.hlen
      else if code = 7 ∧ s.nlen.toNat ≠ 32 then raised t 1#2 32#32 s.nlen
      else t.phase = Phase.copy ∧ { t with phase := s.phase } = s

/-- R205: HASH1 takes D1 from the whole of WBUF for `ELEM_ITER_A`, from WP for `ELEM_ITER_B`; only D1 and PHASE are
written. For any other opcode, which R202 keeps from HASH1, the rule's two tests both fail and D1 stays (log entry 5). -/
def Obligations.Hash1HashesTheVariantsMessage : Prop :=
  ∀ s : State, ∃ t, exec .hash1 s = .next t ∧
    (s.op = 2#4 → t.d1 = Config.hash s.wbuf.toList) ∧ (s.op = 5#4 → t.d1 = Config.hash s.wp.toList) ∧
    (s.op ≠ 2#4 → s.op ≠ 5#4 → t.d1 = s.d1) ∧ t.phase = Phase.hash2 ∧ { t with d1 := s.d1, phase := s.phase } = s

/-- R206: HASH2 hashes D1 into D2; only D2 and PHASE are written. -/
def Obligations.Hash2HashesD1 : Prop :=
  ∀ s : State, ∃ t, exec .hash2 s = .next t ∧ t.d2 = Config.hash s.d1.toList ∧ t.phase = Phase.respond ∧
    { t with d2 := s.d2, phase := s.phase } = s

/-- R212, R95: RESPOND after a success publishes WP, D2 or `WBUF[0..L)` by the opcode, byte by byte, with its length in
OLEN; sets VALID, clears HLEN and NLEN, goes idle; the other bytes of OBUF and every other register stay. -/
def Obligations.RespondPublishesTheResult : Prop :=
  ∀ s : State, s.err = false → illegalWord s.cmdr = false →
    ∃ t, exec .respond s = .next t ∧
      t.olen.toNat = (if s.op = 3#4 then 217 else if s.op = 6#4 ∨ s.op = 7#4 then 64 else 32) ∧
      (∀ k (hk : k < 217), t.obuf[k] =
        if k < t.olen.toNat then
          if s.op = 1#4 ∨ s.op = 4#4 then s.wp.toList.getD k 0#8
          else if s.op = 2#4 ∨ s.op = 5#4 then s.d2.toList.getD k 0#8
          else s.wbuf[k]
        else s.obuf[k]) ∧
      t.valid = true ∧ t.done = true ∧ t.hlen = 0#32 ∧ t.nlen = 0#32 ∧ t.phase = Phase.idle ∧
      { t with
        obuf := s.obuf, olen := s.olen, valid := s.valid, hlen := s.hlen, nlen := s.nlen, phase := s.phase } = s

/-- R212, R245, R246: RESPOND after a failure publishes nothing: OBUF and OLEN stay, VALID is set, the inputs are
consumed, the block goes idle. -/
def Obligations.RespondAfterFailurePublishesNothing : Prop :=
  ∀ s : State, s.err = true →
    ∃ t, exec .respond s = .next t ∧ t.valid = true ∧ t.hlen = 0#32 ∧ t.nlen = 0#32 ∧ t.phase = Phase.idle ∧
      { t with valid := s.valid, hlen := s.hlen, nlen := s.nlen, phase := s.phase } = s

/-! ### The micro-operations of the header codec (42_header_codec.md) -/

/-- R172: COPY fills `WBUF[0..L)` from HBUF and leaves the rest of WBUF and every other register but PHASE. -/
def Obligations.CopyCopiesTheHeader : Prop :=
  ∀ s : State, ∃ t, exec .copy s = .next t ∧
    (∀ k (hk : k < 217), t.wbuf[k] = if k < headerLen s.op then s.hbuf[k] else s.wbuf[k]) ∧
    t.phase = (if s.op = 3#4 ∨ s.op = 6#4 ∨ s.op = 7#4 then Phase.patch else Phase.seed) ∧
    { t with wbuf := s.wbuf, phase := s.phase } = s

/-- R173, R65: PATCH writes the nonce, most significant byte first, at 117 or 28, or the wide nonce at 0, by the
opcode; every other byte of WBUF and every other register but PHASE stays. For an opcode that is no insertion command,
which R202 keeps from PATCH, no test of the rule holds and WBUF stays (log entry 5). -/
def Obligations.PatchWritesTheNonce : Prop :=
  ∀ s : State, ∃ t, exec .patch s = .next t ∧
    (∀ k (hk : k < 217), t.wbuf[k] =
      if s.op = 3#4 ∧ 117 ≤ k ∧ k < 121 then BitVec.ofNat 8 (s.nonce.toNat / 256 ^ (120 - k))
      else if s.op = 6#4 ∧ 28 ≤ k ∧ k < 32 then BitVec.ofNat 8 (s.nonce.toNat / 256 ^ (31 - k))
      else if s.op = 7#4 ∧ k < 32 then s.nbuf.toList.getD k 0#8
      else s.wbuf[k]) ∧
    t.phase = Phase.respond ∧ { t with wbuf := s.wbuf, phase := s.phase } = s

/-- R177: SPLICE writes WP over bytes 185 to 216 of WBUF; bytes 0 to 184 and every other register but PHASE stay. -/
def Obligations.SpliceEmbedsTheWorkPar : Prop :=
  ∀ s : State, ∃ t, exec .splice s = .next t ∧
    (∀ k (hk : k < 217), t.wbuf[k] = if 185 ≤ k then s.wp.toList.getD (k - 185) 0#8 else s.wbuf[k]) ∧
    t.phase = Phase.hash1 ∧ { t with wbuf := s.wbuf, phase := s.phase } = s

/-- R174 to R177: the codec functions on buffers of their length: the result's length, the new bytes and that no other
byte changes; R178: a second nonce replaces the first; R182: wide after narrow erases the narrow nonce. -/
def Obligations.CodecFunctionsChangeTheirBytesOnly : Prop :=
  (∀ (h : Bytes) (n m : Word), h.length = 217 →
    (insertNonceA h n).length = 217 ∧
    (∀ k, k < 217 → (insertNonceA h n).getD k 0#8 =
      if 117 ≤ k ∧ k < 121 then BitVec.ofNat 8 (n.toNat / 256 ^ (120 - k)) else h.getD k 0#8) ∧
    insertNonceA (insertNonceA h n) m = insertNonceA h m) ∧
  (∀ (h d : Bytes), h.length = 217 → d.length = 32 →
    (insertWorkPar h d).length = 217 ∧
    ∀ k, k < 217 → (insertWorkPar h d).getD k 0#8 = if 185 ≤ k then d.getD (k - 185) 0#8 else h.getD k 0#8) ∧
  (∀ (h w : Bytes) (n : Word), h.length = 64 → w.length = 32 →
    (insertNonceBNarrow h n).length = 64 ∧ (insertNonceBWide h w).length = 64 ∧
    (∀ k, k < 64 → (insertNonceBNarrow h n).getD k 0#8 =
      if 28 ≤ k ∧ k < 32 then BitVec.ofNat 8 (n.toNat / 256 ^ (31 - k)) else h.getD k 0#8) ∧
    (∀ k, k < 64 → (insertNonceBWide h w).getD k 0#8 = if k < 32 then w.getD k 0#8 else h.getD k 0#8) ∧
    insertNonceBWide (insertNonceBNarrow h n) w = insertNonceBWide h w)

/-! ### The micro-operations of the diffusion engine (41_diffusion_engine.md) -/

/-- R141: SEED hashes `WBUF[0..L)` into ROW and COL, clears all 32 accumulators, I and J, and goes to CHAIN; nothing
else changes. -/
def Obligations.SeedStartsTheEngine : Prop :=
  ∀ s : State, ∃ t, exec .seed s = .next t ∧
    t.row = Config.hash (s.wbuf.toList.take (headerLen s.op)) ∧ t.col = t.row ∧
    (∀ k (hk : k < 32), t.acc[k] = 0#32) ∧ t.i = 0#6 ∧ t.j = 0#6 ∧ t.phase = Phase.chain ∧
    { t with row := s.row, col := s.col, acc := s.acc, i := s.i, j := s.j, phase := s.phase } = s

/-- R142: CHAIN replaces COL by its hash, clears J and goes to MAC; nothing else changes. -/
def Obligations.ChainRehashesTheColumn : Prop :=
  ∀ s : State, ∃ t, exec .chain s = .next t ∧ t.col = Config.hash s.col.toList ∧ t.j = 0#6 ∧ t.phase = Phase.mac ∧
    { t with col := s.col, j := s.j, phase := s.phase } = s

/-- R143, R145: with I and J in 0 to 31, MAC adds `ROW[J] * COL[J]`, both zero-extended, modulo 2^32 to `ACC[I]` and to
no other accumulator, and moves J, I and PHASE as the two counted loops say; nothing else changes. -/
def Obligations.MacAddsOneTerm : Prop :=
  ∀ (s : State) (hi : s.i.toNat < 32) (hj : s.j.toNat < 32), ∃ t, exec .mac s = .next t ∧
    (t.acc[s.i.toNat]).toNat =
      ((s.acc[s.i.toNat]).toNat + (s.row[s.j.toNat]).toNat * (s.col[s.j.toNat]).toNat) % 2 ^ 32 ∧
    (∀ k (hk : k < 32), k ≠ s.i.toNat → t.acc[k] = s.acc[k]) ∧
    (s.j.toNat < 31 → t.j.toNat = s.j.toNat + 1 ∧ t.i = s.i ∧ t.phase = Phase.mac) ∧
    (s.j.toNat = 31 → s.i.toNat < 31 → t.j = 32#6 ∧ t.i.toNat = s.i.toNat + 1 ∧ t.phase = Phase.chain) ∧
    (s.j.toNat = 31 → s.i.toNat = 31 → t.j = 32#6 ∧ t.i = 32#6 ∧ t.phase = Phase.compress) ∧
    { t with acc := s.acc, i := s.i, j := s.j, phase := s.phase } = s

/-- The model's own stop (log entry 8): MAC with I or J outside 0 to 31, which R29 and R143 exclude, faults. -/
def Obligations.MacStopsOutsideItsIndexes : Prop :=
  ∀ s : State, ¬ (s.i.toNat < 32 ∧ s.j.toNat < 32) ↔ exec .mac s = .fault .indexOutOfRange

/-- R144: COMPRESS hashes the 128 serialised bytes into WP and goes where the opcode says; nothing else changes. -/
def Obligations.CompressHashesTheAccumulators : Prop :=
  ∀ s : State, ∃ t, exec .compress s = .next t ∧ t.wp = Config.hash (serialise s.acc) ∧
    (serialise s.acc).length = 128 ∧
    (s.op = 1#4 ∨ s.op = 4#4 → t.phase = Phase.respond) ∧ (s.op = 2#4 → t.phase = Phase.splice) ∧
    (s.op = 5#4 → t.phase = Phase.hash1) ∧ { t with wp := s.wp, phase := s.phase } = s

/-- R63: SER is big-endian in each accumulator, accumulator 0 first. -/
def Obligations.SerialisedAccumulators : Prop :=
  ∀ (acc : Vector Word 32), (serialise acc).length = 128 ∧ ∀ k (hk : k < 32) (b : Nat), b < 4 →
    (serialise acc).getD (4 * k + b) 0#8 = BitVec.ofNat 8 ((acc[k]).toNat / 256 ^ (3 - b))

/-- R146: the wrap never happens. One product is the exact product of the bytes, at most 65025; the sum of the first
`n` terms of a round is the exact sum of their products, so no addition wraps; an accumulator is at most 2080800, its
top 11 bits are 0, and every fourth byte of SER is 0, whatever the hash and the seed are. The spec marks this rule as
its own inference ([derived]). -/
def Obligations.RoundSumNeverWraps : Prop :=
  (∀ r c : Byte, (macTerm r c).toNat = r.toNat * c.toNat ∧ (macTerm r c).toNat ≤ 65025) ∧
  (∀ (row col : Digest) (n : Nat), n ≤ 32 →
    (partialSum row col n).toNat = (((row.toList.zip col.toList).take n).map fun p => p.1.toNat * p.2.toNat).sum) ∧
  (∀ row col : Digest, roundSum row col = partialSum row col 32 ∧ (roundSum row col).toNat ≤ 2080800 ∧
    (roundSum row col).extractLsb' 21 11 = 0#11) ∧
  ∀ (hash : Hash) (seed : Digest) (k : Nat), k < 32 →
    ((roundsFrom hash seed 32 seed).flatMap be32).getD (4 * k) 0#8 = 0#8

/-- R148: the order of the terms of a round cannot be observed, nor whether several are added at once; and a MAC step
writes the accumulator of its own round only. The spec marks this rule as its own inference ([derived]). -/
def Obligations.TermOrderIsInvisible : Prop :=
  (∀ l l' : List (Byte × Byte), l.Perm l' → sumTerms l = sumTerms l') ∧
  (∀ l l' : List (Byte × Byte), sumTerms (l ++ l') = sumTerms l + sumTerms l') ∧
  ∀ (s t : State) (k : Nat) (hk : k < 32), exec .mac s = .next t → k ≠ s.i.toNat → t.acc[k] = s.acc[k]

/-- R155: the columns. `C_0 = H(seed)`, `C_i = H(C_(i-1))`, that is `C_i = H^(i+1)(seed)`; round `i` of WORK_PAR pairs
the seed with `C_i`, whatever the accumulators of the rounds before came to. The spec marks this rule as its own
inference ([derived]). -/
def Obligations.ColumnsInClosedForm : Prop :=
  ∀ (hash : Hash) (seed : Digest),
    column hash seed 0 = hash seed.toList ∧
    (∀ i, column hash seed (i + 1) = hash (column hash seed i).toList) ∧
    (∀ i, column hash seed i = (fun c : Digest => hash c.toList)^[i + 1] seed) ∧
    (∀ n, (roundsFrom hash seed n seed).length = n ∧
      ∀ i, i < n → (roundsFrom hash seed n seed).getD i 0#32 = roundSum seed (column hash seed i))

/-! ### The requester's registers (10_state.md) -/

/-- R40, R42, R44, R45, R48: what `RegRead` returns, register by register; write-only and reserved registers read 0. -/
def Obligations.RegisterReadMap : Prop :=
  ∀ s : State,
    (∀ n : Fin 16, n = 0 ∨ n = 8 ∨ n = 9 ∨ 10 ≤ n → s.regRead n = 0#32) ∧
    s.regRead 2 = s.nonce ∧ s.regRead 3 = s.hlen ∧ s.regRead 4 = s.nlen ∧ s.regRead 5 = s.expected ∧
    s.regRead 6 = s.actual ∧ (s.regRead 7).toNat = s.olen.toNat

/-- R43: STATUS is `BUSY + 2*VALID + 4*ERR + 8*ERRCODE`, BUSY being 1 outside IDLE, and its bits 31:5 are 0; a write to it
changes nothing; in a legal state with BUSY 0 it is 0, 2, 14 or 22. -/
def Obligations.StatusValues : Prop :=
  ∀ s : State,
    (s.regRead 1).toNat = s.busy.toNat + 2 * s.valid.toNat + 4 * s.err.toNat + 8 * s.errcode.toNat ∧
    (s.busy = true ↔ s.phase ≠ Phase.idle) ∧
    (s.regRead 1).toNat < 32 ∧
    (∀ v, s.performWrite ⟨1, v⟩ = s) ∧
    (Control s → s.busy = false → (s.regRead 1).toNat ∈ [0, 2, 14, 22])

/-- R47: `OutRead(k)` is `OBUF[k]` below OLEN and 0 from OLEN on, and has no side effect; in a legal state it is 0 for
every `k` while a command runs, after a failed one and with none done since reset. -/
def Obligations.OutWindow : Prop :=
  ∀ (s : State) (k : Fin 256),
    (∀ hk : k.val < 217, k.val < s.olen.toNat → s.outRead k = s.obuf[k.val]) ∧
    (s.olen.toNat ≤ k.val → s.outRead k = 0#8) ∧
    accessStep (.outRead k) s = .next { s with observed := s.observed ++ [.out k (s.outRead k)] } ∧
    (Control s → (s.busy = true ∨ s.err = true ∨ s.valid = false) → s.outRead k = 0#8)

/-- R46: HDR_PUSH in IDLE stores the low byte at HLEN while HLEN is below 217, counts it in any case, saturates at
2^32 - 1, and changes nothing else. -/
def Obligations.HeaderPush : Prop :=
  ∀ (s : State) (v : Word) (ts : List Turn), s.phase = Phase.idle → s.rst = false → s.held = [] →
    s.turns = .access (.regWrite ⟨8, v⟩) :: ts →
    ∃ t, step s = .next t ∧ t.hlen.toNat = min (s.hlen.toNat + 1) (2 ^ 32 - 1) ∧
      (∀ k (hk : k < 217), t.hbuf[k] = if k = s.hlen.toNat then BitVec.ofNat 8 v.toNat else s.hbuf[k]) ∧
      { t with hbuf := s.hbuf, hlen := s.hlen, turns := s.turns } = s

/-- R46: NW_PUSH in IDLE, the same for NBUF (32 bytes) and NLEN. -/
def Obligations.WideNoncePush : Prop :=
  ∀ (s : State) (v : Word) (ts : List Turn), s.phase = Phase.idle → s.rst = false → s.held = [] →
    s.turns = .access (.regWrite ⟨9, v⟩) :: ts →
    ∃ t, step s = .next t ∧ t.nlen.toNat = min (s.nlen.toNat + 1) (2 ^ 32 - 1) ∧
      (∀ k (hk : k < 32), t.nbuf[k] = if k = s.nlen.toNat then BitVec.ofNat 8 v.toNat else s.nbuf[k]) ∧
      { t with nbuf := s.nbuf, nlen := s.nlen, turns := s.turns } = s

/-- R48, R44: a read of a write-only or reserved register (0, 8 to 15) gives 0; a write to a read-only or reserved
register (1, 3 to 7, 10 to 15) is performed, or held while a command runs, and changes nothing; a write to NONCE sets NONCE
and nothing else. -/
def Obligations.OtherRegisterWrites : Prop :=
  (∀ (s : State) (n : Fin 16), n = 0 ∨ 8 ≤ n → s.regRead n = 0#32) ∧
  ∀ (s : State) (a : RegWrite) (ts : List Turn), s.rst = false → s.turns = .access (.regWrite a) :: ts →
    (s.phase = Phase.idle → s.held = [] → a.n = 1 ∨ (3 ≤ a.n ∧ a.n ≤ 7) ∨ 10 ≤ a.n →
      step s = .next { s with turns := ts }) ∧
    (s.phase ≠ Phase.idle → step s = .next { s with turns := ts, held := s.held ++ [a] }) ∧
    (∀ u : State, a.n = 1 ∨ (3 ≤ a.n ∧ a.n ≤ 7) ∨ 10 ≤ a.n → u.performWrite a = u) ∧
    (s.phase = Phase.idle → s.held = [] → a.n = 2 → step s = .next { s with turns := ts, nonce := a.v })

/-- R71, R79: a read, served in any phase, changes nothing of the block and does not disturb what runs: it only adds
the value to what the requester has seen, and the step the sequencer takes after it is the one it would have taken.
The spec marks R71 and R79 as its own inferences ([derived]). -/
def Obligations.ReadsChangeNothing : Prop :=
  ∀ (s : State) (r : Turn) (ts : List Turn), r.isRead = true → s.rst = false → (s.busy = true ∨ s.held = []) →
    s.turns = r :: ts →
    ∃ t o, step s = .next t ∧ t.block = s.block ∧ t.turns = ts ∧ t.observed = s.observed ++ [o] ∧
      (∀ n, r = .access (.regRead n) → o = .reg n (s.regRead n)) ∧
      (∀ k, r = .access (.outRead k) → o = .out k (s.outRead k))

/-- R52: no access reads an internal register: two states that agree on the visible registers and output bytes give
equal reads. -/
def Obligations.InternalRegistersAreUnreadable : Prop :=
  ∀ s t : State, sameVisible s t → (∀ n, s.regRead n = t.regRead n) ∧ ∀ k, s.outRead k = t.outRead k

/-! ### Reset (70_reset_and_hazards.md) -/

/-- R270, R272: asserting RST in any phase gives every register that has a reset value that value, discards the held
writes and leaves the block idle, VALID, BUSY and DONE 0, every OUT byte 0; the running command is gone. Whatever the
registers without a reset value hold, the state is legal. That I and J are then at most 32 (a clause of `Control`) is
the model's choice and no rule of the spec: R50 and U6 leave both unspecified, and log entry 3 bounds their free values
by R29. -/
def Obligations.ResetAbandonsEverything : Prop :=
  ∀ (s : State) (ts : List Turn), s.rst = false → s.turns = .assertReset :: ts →
    ∃ t, step s = .next t ∧ t.rst = true ∧ t.phase = Phase.idle ∧ t.cmdr = 0#32 ∧ t.valid = false ∧ t.err = false ∧
      t.errcode = 0#2 ∧ t.expected = 0#32 ∧ t.actual = 0#32 ∧ t.olen = 0#8 ∧ t.hlen = 0#32 ∧ t.nlen = 0#32 ∧ t.nonce = 0#32 ∧
      t.held = [] ∧ t.turns = ts ∧ t.observed = s.observed ∧ t.busy = false ∧ t.done = false ∧
      (∀ n, t.regRead n = 0#32) ∧ (∀ k, t.outRead k = 0#8) ∧ Control t

/-- R270: while RST stays asserted no turn has any effect, and releasing it changes nothing but its level. That a turn
taken then passes without effect is the model's choice (log entry 9). -/
def Obligations.AssertedResetBlocksEverything : Prop :=
  ∀ (s : State) (u : Turn) (ts : List Turn), s.rst = true → s.turns = u :: ts →
    step s = .next { s with turns := ts, rst := u != .releaseReset }

/-- R50: the state right after reset: every register with a reset value has it, every read gives 0, and both
invariants hold. That the invariants hold rests on the model's values for the registers R50 leaves open (log entry 2). -/
def Obligations.ResetState : Prop :=
  Control State.reset ∧ Tracks Config.hash State.reset ∧
  (∀ n, State.reset.regRead n = 0#32) ∧ (∀ k, State.reset.outRead k = 0#8) ∧
  State.reset.phase = Phase.idle ∧ State.reset.cmdr = 0#32 ∧ State.reset.nonce = 0#32 ∧ State.reset.done = false ∧
  State.reset.held = [] ∧ State.reset.rst = false

/-- R275: a command issued straight after reset, with no header pushed, ends in `SizeMismatch(L, 0)`. The spec marks
this rule as its own inference ([derived]). The statement is about the one state `State.reset`, in which no turn is
given, so that no access comes between the two steps (log entry 4). -/
def Obligations.FirstCommandWithoutHeaderFails : Prop :=
  ∀ (i : Instr) (w : Word), encode i = .cmd w → ∃ t u, exec i State.reset = .next t ∧ steps 2 t = .next u ∧
    u.phase = Phase.idle ∧ u.valid = true ∧
    u.response = .sizeMismatch (if w.toNat ≤ 3 then 217 else 64) 0

/-! ### Rules of the whole machine -/

/-- R202: the phase graph. In a legal state, the micro-operation that PHASE names leaves PHASE at the value the
table of R202 gives. -/
def Obligations.PhaseGraph : Prop :=
  ∀ (s t : State) (i : Instr), Control s → decodePhase s.phase = .ok i → exec i s = .next t →
    t.phase = nextPhase s i

/-- R35: which step writes which flag. Acceptance clears all six; the sequencer's CHECK alone may write ERR, ERRCODE,
EXPECTED and ACTUAL, RESPOND alone sets VALID and, unless the command failed, OLEN; the other micro-operations write
none of them, and a read changes none. The spec marks this rule as its own inference ([derived]). -/
def Obligations.FlagWriters : Prop :=
  (∀ (s : State) (w : Word),
    let t := s.accept w
    t.valid = false ∧ t.err = false ∧ t.errcode = 0#2 ∧ t.expected = 0#32 ∧ t.actual = 0#32 ∧ t.olen = 0#8) ∧
  (∀ (s t : State) (i : Instr) (p : BitVec 4), encode i = .phase p → exec i s = .next t →
    (i ≠ .check → t.err = s.err ∧ t.errcode = s.errcode ∧ t.expected = s.expected ∧ t.actual = s.actual) ∧
    (i ≠ .respond → t.valid = s.valid ∧ t.olen = s.olen ∧ t.obuf = s.obuf) ∧
    (i = .respond → t.valid = true ∧ (s.err = true → t.olen = s.olen))) ∧
  (∀ (s : State) (n : Fin 16),
    accessStep (.regRead n) s = .next { s with observed := s.observed ++ [.reg n (s.regRead n)] })

/-- R21, R23, R72, R181: no micro-operation writes the requester's buffers, the nonce, the command word or the held
writes, and RESPOND alone clears the counters. -/
def Obligations.InputsAreNeverWrittenBySequencer : Prop :=
  ∀ (s t : State) (i : Instr) (p : BitVec 4), encode i = .phase p → exec i s = .next t →
    t.hbuf = s.hbuf ∧ t.nbuf = s.nbuf ∧ t.nonce = s.nonce ∧ t.cmdr = s.cmdr ∧ t.held = s.held ∧
    t.turns = s.turns ∧ t.observed = s.observed ∧ t.rst = s.rst ∧
    (i ≠ .respond → t.hlen = s.hlen ∧ t.nlen = s.nlen)

/-- R270: VALID falls by acceptance or reset alone, and a counter that was above 0 becomes 0 by RESPOND or reset
alone. -/
def Obligations.OnlyTheseStepsClear : Prop :=
  ∀ s t : State, Control s → step s = .next t →
    (s.valid = true → t.valid = false → t.rst = true ∨ (s.phase = Phase.idle ∧ t.phase = Phase.check)) ∧
    (s.hlen ≠ 0#32 → t.hlen = 0#32 → t.rst = true ∨ (s.phase = Phase.respond ∧ t.phase = Phase.idle)) ∧
    (s.nlen ≠ 0#32 → t.nlen = 0#32 → t.rst = true ∨ (s.phase = Phase.respond ∧ t.phase = Phase.idle))

/-- R247, R242, R243: a command that fails performs no partial computation. From CHECK, with an error `e`, two
sequencer steps complete the command: WBUF, OBUF, the engine's registers and the digests are as they were, the
response is the error, the inputs are consumed. The spec marks this rule as its own inference ([derived]). -/
def Obligations.FailedCommandComputesNothing : Prop :=
  ∀ (s : State) (e : CmdError), Control s → s.phase = Phase.check → s.rst = false → s.turns = [] →
    checkError s.cmdr s.hlen s.nlen = some e →
    ∃ t, steps 2 s = .next t ∧ t.valid = true ∧ t.err = true ∧ t.olen = 0#8 ∧ t.hlen = 0#32 ∧ t.nlen = 0#32 ∧
      t.phase = Phase.idle ∧
      t.response = e.response ∧
      { t with
        valid := s.valid, err := s.err, errcode := s.errcode, expected := s.expected, actual := s.actual
        hlen := s.hlen, nlen := s.nlen, phase := s.phase } = s

/-- The control invariant (R29, R31, R32, R35, R202) is kept by every step. That a reset step keeps its bounds on I and
J rests on the model's choice of log entry 3: R50 leaves both unspecified. -/
def Obligations.EveryStepKeepsControl : Prop :=
  ∀ s t : State, Control s → step s = .next t → Control t

/-- R11, R73, R256: no step of a legal state stops: the block has no trap, no out-of-bounds access and no undefined
result. The spec marks R73 as its own inference ([derived]). -/
def Obligations.NoStepStops : Prop :=
  ∀ s : State, Control s → ∃ t, step s = .next t

/-- R151, R51: the data invariant is kept by every step, whoever moves: what the engine, the codec and the sequencer
hold in each phase is the function of the inputs that the rules say. The spec marks R51 and R151 as its own inferences
([derived]). -/
def Obligations.EveryStepKeepsTracks : Prop :=
  ∀ s t : State, Control s → Tracks Config.hash s → step s = .next t → Tracks Config.hash t

/-- R222: at RESPOND, in any run that kept the invariants, however reads and held writes came between the steps, the
response is `Command` of the inputs. The spec marks this rule as its own inference ([derived]). -/
def Obligations.RespondAnswersTheCommandFunction : Prop :=
  ∀ s : State, Control s → Tracks Config.hash s → s.phase = Phase.respond →
    ∃ t, exec .respond s = .next t ∧ t.valid = true ∧ t.hlen = 0#32 ∧ t.nlen = 0#32 ∧ t.nonce = s.nonce ∧
      t.response = command Config.hash (s.inputs s.cmdr)

/-- R219, R220: every command ends: left alone after its acceptance, the sequencer takes exactly the steps R219
counts, 2 for a failure, 4 for an insertion, 1061, 1063 or 1064 for a hashing command, and is busy before each of
them. The spec marks this rule as its own inference ([derived]). It rests on the liveness of the hash unit (R127, log
entry 1). -/
def Obligations.EveryCommandEnds : Prop :=
  ∀ (s : State) (w : Word), s.phase = Phase.idle → s.rst = false → s.turns = [] →
    (∃ t, steps (commandSteps (s.inputs w)) (s.accept w) = .next t ∧ t.phase = Phase.idle ∧ t.valid = true) ∧
    (∀ n, n < commandSteps (s.inputs w) → ∃ t, steps n (s.accept w) = .next t ∧ t.busy = true ∧ t.valid = false) ∧
    commandSteps (s.inputs w) ≤ 1064

/-- R222: the steps agree with the command-level function. For every command word, accepted in IDLE (the seven
commands and the words that name none), running the sequencer until PHASE is IDLE again leaves VALID = 1 and the
registers as the response `Command` of the inputs at acceptance says, HLEN and NLEN 0 and NONCE as it was. The spec
marks this rule as its own inference ([derived]). It rests on the liveness of the hash unit (R127, log entry 1). -/
def Obligations.CommandComputesItsFunction : Prop :=
  ∀ (w : Word) (s : State), s.phase = Phase.idle → s.rst = false → s.turns = [] →
    ∃ t u, s.regWrite ⟨0, w⟩ = t ∧ (∀ i, encode i = .cmd w → exec i s = .next t) ∧
      steps (commandSteps (s.inputs w)) t = .next u ∧ u.phase = Phase.idle ∧ u.valid = true ∧
      (∀ b, command Config.hash (s.inputs w) = .ok b → u.err = false ∧ u.errcode = 0#2 ∧ u.expected = 0#32 ∧
        u.actual = 0#32 ∧ u.olen.toNat = b.length ∧ slice u.obuf 0 u.olen.toNat = b) ∧
      (∀ e a, command Config.hash (s.inputs w) = .sizeMismatch e a → u.err = true ∧ u.errcode = 1#2 ∧
        u.expected = e ∧ u.actual = a ∧ u.olen = 0#8) ∧
      (command Config.hash (s.inputs w) = .illegalCmd → u.err = true ∧ u.errcode = 2#2 ∧ u.expected = 0#32 ∧
        u.actual = 0#32 ∧ u.olen = 0#8) ∧
      u.hlen = 0#32 ∧ u.nlen = 0#32 ∧ u.nonce = s.nonce

/-- R37, R225: purity. Two states, whatever ran in them before, that agree on the inputs of a command (the word, HLEN
and the stored header bytes, NONCE, NLEN and the stored wide-nonce bytes) give it the same visible result. The spec
marks this rule as its own inference ([derived]). It rests on the liveness of the hash unit (R127, log entry 1). -/
def Obligations.CommandsArePure : Prop :=
  ∀ (s s' : State) (w : Word), s.phase = Phase.idle → s.rst = false → s.turns = [] → s'.phase = Phase.idle →
    s'.rst = false → s'.turns = [] → s.inputs w = s'.inputs w →
    ∃ n u u', steps n (s.accept w) = .next u ∧ steps n (s'.accept w) = .next u' ∧
      u.phase = Phase.idle ∧ u'.phase = Phase.idle ∧ u.valid = true ∧ u'.valid = true ∧ u.err = u'.err ∧
      u.errcode = u'.errcode ∧ u.expected = u'.expected ∧ u.actual = u'.actual ∧ u.olen = u'.olen ∧
      ∀ k, u.outRead k = u'.outRead k

/-- R140, R222 (95_test_vectors.md section 2.5): the identities between the commands' functions: `ELEM_ITER_B` is the
double hash of `MATMUL_WORK_B`'s result, `ELEM_ITER_A` of the header with `GET_WORK_PAR_A`'s result spliced in, for
any `H`. -/
def Obligations.ElementaryIterationFromWorkPar : Prop :=
  ∀ (hash : Hash) (x : Inputs) (b : Bytes),
    (command hash { x with w := 4#32 } = .ok b ↔ x.hl.toNat = 64 ∧ b = (workPar hash x.hb).toList) ∧
    (command hash { x with w := 4#32 } = .ok b →
      command hash { x with w := 5#32 } = .ok (hash (hash b).toList).toList) ∧
    (command hash { x with w := 1#32 } = .ok b →
      command hash { x with w := 2#32 } = .ok (hash (hash (x.hb.take 185 ++ b)).toList).toList)
end

