-- ==== Sys2Proof/Laws/Buffers.lean ====
section
/-! SUPPORT. The laws of slices and of writing a byte sequence into a buffer: read after write, every other byte
unchanged, and a written slice as a concatenation. -/

namespace Sys2Proof.Machine

theorem overlay_getD : ∀ (l : Bytes) (lo : Nat) (s : Bytes) (k : Nat), k < l.length →
    (overlay l lo s).getD k 0#8 = if lo ≤ k ∧ k < lo + s.length then s.getD (k - lo) 0#8 else l.getD k 0#8
  | [], _, _, k, hk => absurd hk (Nat.not_lt_zero k)
  | b :: bs, lo + 1, s, 0, _ => by simp [overlay]
  | b :: bs, lo + 1, s, k + 1, hk => by
    have ih := overlay_getD bs lo s k (by simpa using hk)
    simp only [overlay, List.getD_cons_succ, ih]
    have e : k + 1 - (lo + 1) = k - lo := by omega
    have c : (lo + 1 ≤ k + 1 ∧ k + 1 < lo + 1 + s.length) = (lo ≤ k ∧ k < lo + s.length) := by
      apply propext; omega
    simp only [e, c]
  | b :: bs, 0, [], k, _ => by simp [overlay]
  | b :: bs, 0, x :: xs, 0, _ => by simp [overlay]
  | b :: bs, 0, x :: xs, k + 1, hk => by
    have ih := overlay_getD bs 0 xs k (by simpa using hk)
    simp only [overlay, List.getD_cons_succ, ih]
    simp

/-- Writing within the bounds, as a concatenation. -/
theorem overlay_eq_append : ∀ (l : Bytes) (lo : Nat) (s : Bytes), lo + s.length ≤ l.length →
    overlay l lo s = l.take lo ++ s ++ l.drop (lo + s.length)
  | [], lo, s, h => by
    have hs : s = [] := by
      have := h
      simp only [List.length_nil] at this
      exact List.length_eq_zero_iff.mp (by omega)
    simp [overlay, hs]
  | b :: bs, lo + 1, s, h => by
    have ih := overlay_eq_append bs lo s (by simp at h; omega)
    have e : lo + 1 + s.length = lo + s.length + 1 := by omega
    simp [overlay, ih, e]
  | b :: bs, 0, [], _ => by simp [overlay]
  | b :: bs, 0, x :: xs, h => by
    have ih := overlay_eq_append bs 0 xs (by simp at h ⊢; omega)
    simpa [overlay] using ih

/-- The bytes of a buffer after a write within its bounds (R14). -/
theorem writeBytes_toList {n : Nat} (b : Buffer n) (lo : Nat) (s : Bytes) (h : lo + s.length ≤ n) :
    (writeBytes b lo s).toList = b.toList.take lo ++ s ++ b.toList.drop (lo + s.length) := by
  have := overlay_eq_append b.toList lo s (by simpa using h)
  simpa [writeBytes, Vector.toList] using this

/-- One byte of a buffer after a write (R14 "no other byte of `BUF` changes"). -/
theorem writeBytes_getElem {n : Nat} (b : Buffer n) (lo : Nat) (s : Bytes) (k : Nat) (hk : k < n) :
    (writeBytes b lo s)[k] = if lo ≤ k ∧ k < lo + s.length then s.getD (k - lo) 0#8 else b[k] := by
  have h := overlay_getD b.toList lo s k (by simpa using hk)
  have e : (writeBytes b lo s)[k] = (overlay b.toList lo s).getD k 0#8 := by
    have hl : k < (overlay b.toList lo s).length := by simpa [length_overlay] using hk
    simp [writeBytes, List.getD_eq_getElem?_getD, List.getElem?_eq_getElem hl]
  rw [e, h]
  have e2 : b.toList.getD k 0#8 = b[k] := by
    simp [List.getD_eq_getElem?_getD, List.getElem?_eq_getElem (l := b.toList) (i := k) (by simpa using hk)]
  rw [e2]

@[simp] theorem slice_zero {n : Nat} (b : Buffer n) (hi : Nat) : slice b 0 hi = b.toList.take hi := by
  simp [slice]

theorem slice_length {n : Nat} (b : Buffer n) (lo hi : Nat) (h : hi ≤ n) : (slice b lo hi).length = hi - lo := by
  simp [slice, h]

@[simp] theorem slice_full {n : Nat} (b : Buffer n) : slice b 0 n = b.toList := by
  simp [slice, List.take_of_length_le]

/-- A slice is where it was written. -/
theorem slice_writeBytes_prefix {n : Nat} (b : Buffer n) (s : Bytes) (h : s.length ≤ n) :
    slice (writeBytes b 0 s) 0 s.length = s := by
  simp [writeBytes_toList b 0 s (by simpa using h)]

/-- The counters count one and saturate at 2^32 - 1 (R46). -/
theorem countUp_toNat (c : Word) : (countUp c).toNat = min (c.toNat + 1) (2 ^ 32 - 1) := by
  simp [countUp]

theorem countUp_ne_zero (c : Word) : countUp c ≠ 0#32 := by
  intro h
  have h' := congrArg BitVec.toNat h
  rw [countUp_toNat] at h'
  simp at h'

@[simp] theorem be32_length (v : Word) : (be32 v).length = 4 := rfl

theorem serialise_length (acc : Vector Word 32) : (serialise acc).length = 128 := by
  simp [serialise, List.length_flatMap, be32_length]

@[simp] theorem headerLen_le (op : BitVec 4) : headerLen op ≤ 217 := by
  unfold headerLen; split <;> decide

theorem headerIn_length (s : State) : s.headerIn.length = headerLen s.op := by
  simp [State.headerIn]

theorem headerWork_length (s : State) : s.headerWork.length = headerLen s.op := by
  simp [State.headerWork]

end Sys2Proof.Machine
end

