-- ==== Sys2Proof/Laws/Encoding.lean ====
section
/-! SUPPORT. The command word's fields as numbers, and the illegal words as those outside 1 to 7 (R91 to R93). -/

namespace Sys2Proof.Machine

@[simp] theorem opField_toNat (w : Word) : (opField w).toNat = w.toNat % 16 := by
  simp [opField]

@[simp] theorem reservedField_toNat (w : Word) : (reservedField w).toNat = w.toNat / 16 := by
  simp only [reservedField, BitVec.extractLsb'_toNat, Nat.shiftRight_eq_div_pow]
  omega

theorem reservedField_eq_zero (w : Word) : reservedField w = 0#28 ↔ w.toNat / 16 = 0 := by
  rw [← BitVec.toNat_inj, reservedField_toNat]
  rfl

/-- An opcode test as a test on numbers. -/
theorem op_eq_iff (op : BitVec 4) (n : Nat) (hn : n < 16) : op = BitVec.ofNat 4 n ↔ op.toNat = n := by
  rw [← BitVec.toNat_inj, BitVec.toNat_ofNat, Nat.mod_eq_of_lt hn]

theorem illegalWord_eq_false (w : Word) : illegalWord w = false ↔ 1 ≤ w.toNat ∧ w.toNat ≤ 7 := by
  have hr := reservedField_eq_zero w
  have h0 : opField w = 0#4 ↔ w.toNat % 16 = 0 := by
    rw [← opField_toNat]; exact op_eq_iff _ 0 (by decide)
  simp only [illegalWord, Bool.or_eq_false_iff, bne_eq_false_iff_eq, hr, beq_eq_false_iff_ne, ne_eq, h0,
    decide_eq_false_iff_not, opField_toNat]
  omega

/-- A legal word is its opcode. -/
theorem opField_of_legal (w : Word) (h : illegalWord w = false) : (opField w).toNat = w.toNat := by
  have := (illegalWord_eq_false w).1 h
  rw [opField_toNat]; omega

theorem headerLen_eq (op : BitVec 4) :
    headerLen op = if op.toNat = 1 ∨ op.toNat = 2 ∨ op.toNat = 3 then 217 else 64 := by
  revert op; decide

theorem isInsertion_iff (op : BitVec 4) : isInsertion op = true ↔ op.toNat = 3 ∨ op.toNat = 6 ∨ op.toNat = 7 := by
  revert op; decide

end Sys2Proof.Machine
end

