-- ==== Sys2Proof/Laws/State.lean ====
section
/-! SUPPORT. One lemma per field per named update of the state, each true by unfolding, so that no later proof unfolds
an update. -/

namespace Sys2Proof.Machine

/-! ### `goto` -/

@[simp] theorem goto_hbuf (s : State) (p : BitVec 4) : (s.goto p).hbuf = s.hbuf := rfl
@[simp] theorem goto_hlen (s : State) (p : BitVec 4) : (s.goto p).hlen = s.hlen := rfl
@[simp] theorem goto_nbuf (s : State) (p : BitVec 4) : (s.goto p).nbuf = s.nbuf := rfl
@[simp] theorem goto_nlen (s : State) (p : BitVec 4) : (s.goto p).nlen = s.nlen := rfl
@[simp] theorem goto_nonce (s : State) (p : BitVec 4) : (s.goto p).nonce = s.nonce := rfl
@[simp] theorem goto_cmdr (s : State) (p : BitVec 4) : (s.goto p).cmdr = s.cmdr := rfl
@[simp] theorem goto_phase (s : State) (p : BitVec 4) : (s.goto p).phase = p := rfl
@[simp] theorem goto_wbuf (s : State) (p : BitVec 4) : (s.goto p).wbuf = s.wbuf := rfl
@[simp] theorem goto_row (s : State) (p : BitVec 4) : (s.goto p).row = s.row := rfl
@[simp] theorem goto_col (s : State) (p : BitVec 4) : (s.goto p).col = s.col := rfl
@[simp] theorem goto_acc (s : State) (p : BitVec 4) : (s.goto p).acc = s.acc := rfl
@[simp] theorem goto_i (s : State) (p : BitVec 4) : (s.goto p).i = s.i := rfl
@[simp] theorem goto_j (s : State) (p : BitVec 4) : (s.goto p).j = s.j := rfl
@[simp] theorem goto_wp (s : State) (p : BitVec 4) : (s.goto p).wp = s.wp := rfl
@[simp] theorem goto_d1 (s : State) (p : BitVec 4) : (s.goto p).d1 = s.d1 := rfl
@[simp] theorem goto_d2 (s : State) (p : BitVec 4) : (s.goto p).d2 = s.d2 := rfl
@[simp] theorem goto_valid (s : State) (p : BitVec 4) : (s.goto p).valid = s.valid := rfl
@[simp] theorem goto_err (s : State) (p : BitVec 4) : (s.goto p).err = s.err := rfl
@[simp] theorem goto_errcode (s : State) (p : BitVec 4) : (s.goto p).errcode = s.errcode := rfl
@[simp] theorem goto_expected (s : State) (p : BitVec 4) : (s.goto p).expected = s.expected := rfl
@[simp] theorem goto_actual (s : State) (p : BitVec 4) : (s.goto p).actual = s.actual := rfl
@[simp] theorem goto_obuf (s : State) (p : BitVec 4) : (s.goto p).obuf = s.obuf := rfl
@[simp] theorem goto_olen (s : State) (p : BitVec 4) : (s.goto p).olen = s.olen := rfl
@[simp] theorem goto_held (s : State) (p : BitVec 4) : (s.goto p).held = s.held := rfl
@[simp] theorem goto_rst (s : State) (p : BitVec 4) : (s.goto p).rst = s.rst := rfl
@[simp] theorem goto_turns (s : State) (p : BitVec 4) : (s.goto p).turns = s.turns := rfl
@[simp] theorem goto_observed (s : State) (p : BitVec 4) : (s.goto p).observed = s.observed := rfl
@[simp] theorem goto_resets (s : State) (p : BitVec 4) : (s.goto p).resets = s.resets := rfl

/-! ### `withTurns` -/

@[simp] theorem withTurns_hbuf (s : State) (ts : List Turn) : (s.withTurns ts).hbuf = s.hbuf := rfl
@[simp] theorem withTurns_hlen (s : State) (ts : List Turn) : (s.withTurns ts).hlen = s.hlen := rfl
@[simp] theorem withTurns_nbuf (s : State) (ts : List Turn) : (s.withTurns ts).nbuf = s.nbuf := rfl
@[simp] theorem withTurns_nlen (s : State) (ts : List Turn) : (s.withTurns ts).nlen = s.nlen := rfl
@[simp] theorem withTurns_nonce (s : State) (ts : List Turn) : (s.withTurns ts).nonce = s.nonce := rfl
@[simp] theorem withTurns_cmdr (s : State) (ts : List Turn) : (s.withTurns ts).cmdr = s.cmdr := rfl
@[simp] theorem withTurns_phase (s : State) (ts : List Turn) : (s.withTurns ts).phase = s.phase := rfl
@[simp] theorem withTurns_wbuf (s : State) (ts : List Turn) : (s.withTurns ts).wbuf = s.wbuf := rfl
@[simp] theorem withTurns_row (s : State) (ts : List Turn) : (s.withTurns ts).row = s.row := rfl
@[simp] theorem withTurns_col (s : State) (ts : List Turn) : (s.withTurns ts).col = s.col := rfl
@[simp] theorem withTurns_acc (s : State) (ts : List Turn) : (s.withTurns ts).acc = s.acc := rfl
@[simp] theorem withTurns_i (s : State) (ts : List Turn) : (s.withTurns ts).i = s.i := rfl
@[simp] theorem withTurns_j (s : State) (ts : List Turn) : (s.withTurns ts).j = s.j := rfl
@[simp] theorem withTurns_wp (s : State) (ts : List Turn) : (s.withTurns ts).wp = s.wp := rfl
@[simp] theorem withTurns_d1 (s : State) (ts : List Turn) : (s.withTurns ts).d1 = s.d1 := rfl
@[simp] theorem withTurns_d2 (s : State) (ts : List Turn) : (s.withTurns ts).d2 = s.d2 := rfl
@[simp] theorem withTurns_valid (s : State) (ts : List Turn) : (s.withTurns ts).valid = s.valid := rfl
@[simp] theorem withTurns_err (s : State) (ts : List Turn) : (s.withTurns ts).err = s.err := rfl
@[simp] theorem withTurns_errcode (s : State) (ts : List Turn) : (s.withTurns ts).errcode = s.errcode := rfl
@[simp] theorem withTurns_expected (s : State) (ts : List Turn) : (s.withTurns ts).expected = s.expected := rfl
@[simp] theorem withTurns_actual (s : State) (ts : List Turn) : (s.withTurns ts).actual = s.actual := rfl
@[simp] theorem withTurns_obuf (s : State) (ts : List Turn) : (s.withTurns ts).obuf = s.obuf := rfl
@[simp] theorem withTurns_olen (s : State) (ts : List Turn) : (s.withTurns ts).olen = s.olen := rfl
@[simp] theorem withTurns_held (s : State) (ts : List Turn) : (s.withTurns ts).held = s.held := rfl
@[simp] theorem withTurns_rst (s : State) (ts : List Turn) : (s.withTurns ts).rst = s.rst := rfl
@[simp] theorem withTurns_turns (s : State) (ts : List Turn) : (s.withTurns ts).turns = ts := rfl
@[simp] theorem withTurns_observed (s : State) (ts : List Turn) : (s.withTurns ts).observed = s.observed := rfl
@[simp] theorem withTurns_resets (s : State) (ts : List Turn) : (s.withTurns ts).resets = s.resets := rfl

/-! ### `withHeld` -/

@[simp] theorem withHeld_hbuf (s : State) (ws : List RegWrite) : (s.withHeld ws).hbuf = s.hbuf := rfl
@[simp] theorem withHeld_hlen (s : State) (ws : List RegWrite) : (s.withHeld ws).hlen = s.hlen := rfl
@[simp] theorem withHeld_nbuf (s : State) (ws : List RegWrite) : (s.withHeld ws).nbuf = s.nbuf := rfl
@[simp] theorem withHeld_nlen (s : State) (ws : List RegWrite) : (s.withHeld ws).nlen = s.nlen := rfl
@[simp] theorem withHeld_nonce (s : State) (ws : List RegWrite) : (s.withHeld ws).nonce = s.nonce := rfl
@[simp] theorem withHeld_cmdr (s : State) (ws : List RegWrite) : (s.withHeld ws).cmdr = s.cmdr := rfl
@[simp] theorem withHeld_phase (s : State) (ws : List RegWrite) : (s.withHeld ws).phase = s.phase := rfl
@[simp] theorem withHeld_wbuf (s : State) (ws : List RegWrite) : (s.withHeld ws).wbuf = s.wbuf := rfl
@[simp] theorem withHeld_row (s : State) (ws : List RegWrite) : (s.withHeld ws).row = s.row := rfl
@[simp] theorem withHeld_col (s : State) (ws : List RegWrite) : (s.withHeld ws).col = s.col := rfl
@[simp] theorem withHeld_acc (s : State) (ws : List RegWrite) : (s.withHeld ws).acc = s.acc := rfl
@[simp] theorem withHeld_i (s : State) (ws : List RegWrite) : (s.withHeld ws).i = s.i := rfl
@[simp] theorem withHeld_j (s : State) (ws : List RegWrite) : (s.withHeld ws).j = s.j := rfl
@[simp] theorem withHeld_wp (s : State) (ws : List RegWrite) : (s.withHeld ws).wp = s.wp := rfl
@[simp] theorem withHeld_d1 (s : State) (ws : List RegWrite) : (s.withHeld ws).d1 = s.d1 := rfl
@[simp] theorem withHeld_d2 (s : State) (ws : List RegWrite) : (s.withHeld ws).d2 = s.d2 := rfl
@[simp] theorem withHeld_valid (s : State) (ws : List RegWrite) : (s.withHeld ws).valid = s.valid := rfl
@[simp] theorem withHeld_err (s : State) (ws : List RegWrite) : (s.withHeld ws).err = s.err := rfl
@[simp] theorem withHeld_errcode (s : State) (ws : List RegWrite) : (s.withHeld ws).errcode = s.errcode := rfl
@[simp] theorem withHeld_expected (s : State) (ws : List RegWrite) : (s.withHeld ws).expected = s.expected := rfl
@[simp] theorem withHeld_actual (s : State) (ws : List RegWrite) : (s.withHeld ws).actual = s.actual := rfl
@[simp] theorem withHeld_obuf (s : State) (ws : List RegWrite) : (s.withHeld ws).obuf = s.obuf := rfl
@[simp] theorem withHeld_olen (s : State) (ws : List RegWrite) : (s.withHeld ws).olen = s.olen := rfl
@[simp] theorem withHeld_held (s : State) (ws : List RegWrite) : (s.withHeld ws).held = ws := rfl
@[simp] theorem withHeld_rst (s : State) (ws : List RegWrite) : (s.withHeld ws).rst = s.rst := rfl
@[simp] theorem withHeld_turns (s : State) (ws : List RegWrite) : (s.withHeld ws).turns = s.turns := rfl
@[simp] theorem withHeld_observed (s : State) (ws : List RegWrite) : (s.withHeld ws).observed = s.observed := rfl
@[simp] theorem withHeld_resets (s : State) (ws : List RegWrite) : (s.withHeld ws).resets = s.resets := rfl

/-! ### `clearResults` -/

@[simp] theorem clearResults_hbuf (s : State) : (s.clearResults).hbuf = s.hbuf := rfl
@[simp] theorem clearResults_hlen (s : State) : (s.clearResults).hlen = s.hlen := rfl
@[simp] theorem clearResults_nbuf (s : State) : (s.clearResults).nbuf = s.nbuf := rfl
@[simp] theorem clearResults_nlen (s : State) : (s.clearResults).nlen = s.nlen := rfl
@[simp] theorem clearResults_nonce (s : State) : (s.clearResults).nonce = s.nonce := rfl
@[simp] theorem clearResults_cmdr (s : State) : (s.clearResults).cmdr = s.cmdr := rfl
@[simp] theorem clearResults_phase (s : State) : (s.clearResults).phase = s.phase := rfl
@[simp] theorem clearResults_wbuf (s : State) : (s.clearResults).wbuf = s.wbuf := rfl
@[simp] theorem clearResults_row (s : State) : (s.clearResults).row = s.row := rfl
@[simp] theorem clearResults_col (s : State) : (s.clearResults).col = s.col := rfl
@[simp] theorem clearResults_acc (s : State) : (s.clearResults).acc = s.acc := rfl
@[simp] theorem clearResults_i (s : State) : (s.clearResults).i = s.i := rfl
@[simp] theorem clearResults_j (s : State) : (s.clearResults).j = s.j := rfl
@[simp] theorem clearResults_wp (s : State) : (s.clearResults).wp = s.wp := rfl
@[simp] theorem clearResults_d1 (s : State) : (s.clearResults).d1 = s.d1 := rfl
@[simp] theorem clearResults_d2 (s : State) : (s.clearResults).d2 = s.d2 := rfl
@[simp] theorem clearResults_valid (s : State) : (s.clearResults).valid = false := rfl
@[simp] theorem clearResults_err (s : State) : (s.clearResults).err = false := rfl
@[simp] theorem clearResults_errcode (s : State) : (s.clearResults).errcode = 0#2 := rfl
@[simp] theorem clearResults_expected (s : State) : (s.clearResults).expected = 0#32 := rfl
@[simp] theorem clearResults_actual (s : State) : (s.clearResults).actual = 0#32 := rfl
@[simp] theorem clearResults_obuf (s : State) : (s.clearResults).obuf = s.obuf := rfl
@[simp] theorem clearResults_olen (s : State) : (s.clearResults).olen = 0#8 := rfl
@[simp] theorem clearResults_held (s : State) : (s.clearResults).held = s.held := rfl
@[simp] theorem clearResults_rst (s : State) : (s.clearResults).rst = s.rst := rfl
@[simp] theorem clearResults_turns (s : State) : (s.clearResults).turns = s.turns := rfl
@[simp] theorem clearResults_observed (s : State) : (s.clearResults).observed = s.observed := rfl
@[simp] theorem clearResults_resets (s : State) : (s.clearResults).resets = s.resets := rfl

/-! ### `accept` -/

@[simp] theorem accept_hbuf (s : State) (w : Word) : (s.accept w).hbuf = s.hbuf := rfl
@[simp] theorem accept_hlen (s : State) (w : Word) : (s.accept w).hlen = s.hlen := rfl
@[simp] theorem accept_nbuf (s : State) (w : Word) : (s.accept w).nbuf = s.nbuf := rfl
@[simp] theorem accept_nlen (s : State) (w : Word) : (s.accept w).nlen = s.nlen := rfl
@[simp] theorem accept_nonce (s : State) (w : Word) : (s.accept w).nonce = s.nonce := rfl
@[simp] theorem accept_cmdr (s : State) (w : Word) : (s.accept w).cmdr = w := rfl
@[simp] theorem accept_phase (s : State) (w : Word) : (s.accept w).phase = Phase.check := rfl
@[simp] theorem accept_wbuf (s : State) (w : Word) : (s.accept w).wbuf = s.wbuf := rfl
@[simp] theorem accept_row (s : State) (w : Word) : (s.accept w).row = s.row := rfl
@[simp] theorem accept_col (s : State) (w : Word) : (s.accept w).col = s.col := rfl
@[simp] theorem accept_acc (s : State) (w : Word) : (s.accept w).acc = s.acc := rfl
@[simp] theorem accept_i (s : State) (w : Word) : (s.accept w).i = s.i := rfl
@[simp] theorem accept_j (s : State) (w : Word) : (s.accept w).j = s.j := rfl
@[simp] theorem accept_wp (s : State) (w : Word) : (s.accept w).wp = s.wp := rfl
@[simp] theorem accept_d1 (s : State) (w : Word) : (s.accept w).d1 = s.d1 := rfl
@[simp] theorem accept_d2 (s : State) (w : Word) : (s.accept w).d2 = s.d2 := rfl
@[simp] theorem accept_valid (s : State) (w : Word) : (s.accept w).valid = false := rfl
@[simp] theorem accept_err (s : State) (w : Word) : (s.accept w).err = false := rfl
@[simp] theorem accept_errcode (s : State) (w : Word) : (s.accept w).errcode = 0#2 := rfl
@[simp] theorem accept_expected (s : State) (w : Word) : (s.accept w).expected = 0#32 := rfl
@[simp] theorem accept_actual (s : State) (w : Word) : (s.accept w).actual = 0#32 := rfl
@[simp] theorem accept_obuf (s : State) (w : Word) : (s.accept w).obuf = s.obuf := rfl
@[simp] theorem accept_olen (s : State) (w : Word) : (s.accept w).olen = 0#8 := rfl
@[simp] theorem accept_held (s : State) (w : Word) : (s.accept w).held = s.held := rfl
@[simp] theorem accept_rst (s : State) (w : Word) : (s.accept w).rst = s.rst := rfl
@[simp] theorem accept_turns (s : State) (w : Word) : (s.accept w).turns = s.turns := rfl
@[simp] theorem accept_observed (s : State) (w : Word) : (s.accept w).observed = s.observed := rfl
@[simp] theorem accept_resets (s : State) (w : Word) : (s.accept w).resets = s.resets := rfl

/-! ### `complete` -/

@[simp] theorem complete_hbuf (s : State) : (s.complete).hbuf = s.hbuf := rfl
@[simp] theorem complete_hlen (s : State) : (s.complete).hlen = 0#32 := rfl
@[simp] theorem complete_nbuf (s : State) : (s.complete).nbuf = s.nbuf := rfl
@[simp] theorem complete_nlen (s : State) : (s.complete).nlen = 0#32 := rfl
@[simp] theorem complete_nonce (s : State) : (s.complete).nonce = s.nonce := rfl
@[simp] theorem complete_cmdr (s : State) : (s.complete).cmdr = s.cmdr := rfl
@[simp] theorem complete_phase (s : State) : (s.complete).phase = Phase.idle := rfl
@[simp] theorem complete_wbuf (s : State) : (s.complete).wbuf = s.wbuf := rfl
@[simp] theorem complete_row (s : State) : (s.complete).row = s.row := rfl
@[simp] theorem complete_col (s : State) : (s.complete).col = s.col := rfl
@[simp] theorem complete_acc (s : State) : (s.complete).acc = s.acc := rfl
@[simp] theorem complete_i (s : State) : (s.complete).i = s.i := rfl
@[simp] theorem complete_j (s : State) : (s.complete).j = s.j := rfl
@[simp] theorem complete_wp (s : State) : (s.complete).wp = s.wp := rfl
@[simp] theorem complete_d1 (s : State) : (s.complete).d1 = s.d1 := rfl
@[simp] theorem complete_d2 (s : State) : (s.complete).d2 = s.d2 := rfl
@[simp] theorem complete_valid (s : State) : (s.complete).valid = true := rfl
@[simp] theorem complete_err (s : State) : (s.complete).err = s.err := rfl
@[simp] theorem complete_errcode (s : State) : (s.complete).errcode = s.errcode := rfl
@[simp] theorem complete_expected (s : State) : (s.complete).expected = s.expected := rfl
@[simp] theorem complete_actual (s : State) : (s.complete).actual = s.actual := rfl
@[simp] theorem complete_obuf (s : State) : (s.complete).obuf = s.obuf := rfl
@[simp] theorem complete_olen (s : State) : (s.complete).olen = s.olen := rfl
@[simp] theorem complete_held (s : State) : (s.complete).held = s.held := rfl
@[simp] theorem complete_rst (s : State) : (s.complete).rst = s.rst := rfl
@[simp] theorem complete_turns (s : State) : (s.complete).turns = s.turns := rfl
@[simp] theorem complete_observed (s : State) : (s.complete).observed = s.observed := rfl
@[simp] theorem complete_resets (s : State) : (s.complete).resets = s.resets := rfl

/-! ### `publish` -/

@[simp] theorem publish_hbuf (s : State) (b : Bytes) : (s.publish b).hbuf = s.hbuf := rfl
@[simp] theorem publish_hlen (s : State) (b : Bytes) : (s.publish b).hlen = s.hlen := rfl
@[simp] theorem publish_nbuf (s : State) (b : Bytes) : (s.publish b).nbuf = s.nbuf := rfl
@[simp] theorem publish_nlen (s : State) (b : Bytes) : (s.publish b).nlen = s.nlen := rfl
@[simp] theorem publish_nonce (s : State) (b : Bytes) : (s.publish b).nonce = s.nonce := rfl
@[simp] theorem publish_cmdr (s : State) (b : Bytes) : (s.publish b).cmdr = s.cmdr := rfl
@[simp] theorem publish_phase (s : State) (b : Bytes) : (s.publish b).phase = s.phase := rfl
@[simp] theorem publish_wbuf (s : State) (b : Bytes) : (s.publish b).wbuf = s.wbuf := rfl
@[simp] theorem publish_row (s : State) (b : Bytes) : (s.publish b).row = s.row := rfl
@[simp] theorem publish_col (s : State) (b : Bytes) : (s.publish b).col = s.col := rfl
@[simp] theorem publish_acc (s : State) (b : Bytes) : (s.publish b).acc = s.acc := rfl
@[simp] theorem publish_i (s : State) (b : Bytes) : (s.publish b).i = s.i := rfl
@[simp] theorem publish_j (s : State) (b : Bytes) : (s.publish b).j = s.j := rfl
@[simp] theorem publish_wp (s : State) (b : Bytes) : (s.publish b).wp = s.wp := rfl
@[simp] theorem publish_d1 (s : State) (b : Bytes) : (s.publish b).d1 = s.d1 := rfl
@[simp] theorem publish_d2 (s : State) (b : Bytes) : (s.publish b).d2 = s.d2 := rfl
@[simp] theorem publish_valid (s : State) (b : Bytes) : (s.publish b).valid = s.valid := rfl
@[simp] theorem publish_err (s : State) (b : Bytes) : (s.publish b).err = s.err := rfl
@[simp] theorem publish_errcode (s : State) (b : Bytes) : (s.publish b).errcode = s.errcode := rfl
@[simp] theorem publish_expected (s : State) (b : Bytes) : (s.publish b).expected = s.expected := rfl
@[simp] theorem publish_actual (s : State) (b : Bytes) : (s.publish b).actual = s.actual := rfl
@[simp] theorem publish_obuf (s : State) (b : Bytes) : (s.publish b).obuf = writeBytes s.obuf 0 b := rfl
@[simp] theorem publish_olen (s : State) (b : Bytes) : (s.publish b).olen = BitVec.ofNat 8 b.length := rfl
@[simp] theorem publish_held (s : State) (b : Bytes) : (s.publish b).held = s.held := rfl
@[simp] theorem publish_rst (s : State) (b : Bytes) : (s.publish b).rst = s.rst := rfl
@[simp] theorem publish_turns (s : State) (b : Bytes) : (s.publish b).turns = s.turns := rfl
@[simp] theorem publish_observed (s : State) (b : Bytes) : (s.publish b).observed = s.observed := rfl
@[simp] theorem publish_resets (s : State) (b : Bytes) : (s.publish b).resets = s.resets := rfl

/-! ### `observe` -/

@[simp] theorem observe_hbuf (s : State) (o : Observation) : (s.observe o).hbuf = s.hbuf := rfl
@[simp] theorem observe_hlen (s : State) (o : Observation) : (s.observe o).hlen = s.hlen := rfl
@[simp] theorem observe_nbuf (s : State) (o : Observation) : (s.observe o).nbuf = s.nbuf := rfl
@[simp] theorem observe_nlen (s : State) (o : Observation) : (s.observe o).nlen = s.nlen := rfl
@[simp] theorem observe_nonce (s : State) (o : Observation) : (s.observe o).nonce = s.nonce := rfl
@[simp] theorem observe_cmdr (s : State) (o : Observation) : (s.observe o).cmdr = s.cmdr := rfl
@[simp] theorem observe_phase (s : State) (o : Observation) : (s.observe o).phase = s.phase := rfl
@[simp] theorem observe_wbuf (s : State) (o : Observation) : (s.observe o).wbuf = s.wbuf := rfl
@[simp] theorem observe_row (s : State) (o : Observation) : (s.observe o).row = s.row := rfl
@[simp] theorem observe_col (s : State) (o : Observation) : (s.observe o).col = s.col := rfl
@[simp] theorem observe_acc (s : State) (o : Observation) : (s.observe o).acc = s.acc := rfl
@[simp] theorem observe_i (s : State) (o : Observation) : (s.observe o).i = s.i := rfl
@[simp] theorem observe_j (s : State) (o : Observation) : (s.observe o).j = s.j := rfl
@[simp] theorem observe_wp (s : State) (o : Observation) : (s.observe o).wp = s.wp := rfl
@[simp] theorem observe_d1 (s : State) (o : Observation) : (s.observe o).d1 = s.d1 := rfl
@[simp] theorem observe_d2 (s : State) (o : Observation) : (s.observe o).d2 = s.d2 := rfl
@[simp] theorem observe_valid (s : State) (o : Observation) : (s.observe o).valid = s.valid := rfl
@[simp] theorem observe_err (s : State) (o : Observation) : (s.observe o).err = s.err := rfl
@[simp] theorem observe_errcode (s : State) (o : Observation) : (s.observe o).errcode = s.errcode := rfl
@[simp] theorem observe_expected (s : State) (o : Observation) : (s.observe o).expected = s.expected := rfl
@[simp] theorem observe_actual (s : State) (o : Observation) : (s.observe o).actual = s.actual := rfl
@[simp] theorem observe_obuf (s : State) (o : Observation) : (s.observe o).obuf = s.obuf := rfl
@[simp] theorem observe_olen (s : State) (o : Observation) : (s.observe o).olen = s.olen := rfl
@[simp] theorem observe_held (s : State) (o : Observation) : (s.observe o).held = s.held := rfl
@[simp] theorem observe_rst (s : State) (o : Observation) : (s.observe o).rst = s.rst := rfl
@[simp] theorem observe_turns (s : State) (o : Observation) : (s.observe o).turns = s.turns := rfl
@[simp] theorem observe_observed (s : State) (o : Observation) : (s.observe o).observed = s.observed ++ [o] := rfl
@[simp] theorem observe_resets (s : State) (o : Observation) : (s.observe o).resets = s.resets := rfl

/-! ### `raise_illegal` -/

@[simp] theorem raise_illegal_hbuf (s : State) : (s.raise .illegalCmd).hbuf = s.hbuf := rfl
@[simp] theorem raise_illegal_hlen (s : State) : (s.raise .illegalCmd).hlen = s.hlen := rfl
@[simp] theorem raise_illegal_nbuf (s : State) : (s.raise .illegalCmd).nbuf = s.nbuf := rfl
@[simp] theorem raise_illegal_nlen (s : State) : (s.raise .illegalCmd).nlen = s.nlen := rfl
@[simp] theorem raise_illegal_nonce (s : State) : (s.raise .illegalCmd).nonce = s.nonce := rfl
@[simp] theorem raise_illegal_cmdr (s : State) : (s.raise .illegalCmd).cmdr = s.cmdr := rfl
@[simp] theorem raise_illegal_phase (s : State) : (s.raise .illegalCmd).phase = Phase.respond := rfl
@[simp] theorem raise_illegal_wbuf (s : State) : (s.raise .illegalCmd).wbuf = s.wbuf := rfl
@[simp] theorem raise_illegal_row (s : State) : (s.raise .illegalCmd).row = s.row := rfl
@[simp] theorem raise_illegal_col (s : State) : (s.raise .illegalCmd).col = s.col := rfl
@[simp] theorem raise_illegal_acc (s : State) : (s.raise .illegalCmd).acc = s.acc := rfl
@[simp] theorem raise_illegal_i (s : State) : (s.raise .illegalCmd).i = s.i := rfl
@[simp] theorem raise_illegal_j (s : State) : (s.raise .illegalCmd).j = s.j := rfl
@[simp] theorem raise_illegal_wp (s : State) : (s.raise .illegalCmd).wp = s.wp := rfl
@[simp] theorem raise_illegal_d1 (s : State) : (s.raise .illegalCmd).d1 = s.d1 := rfl
@[simp] theorem raise_illegal_d2 (s : State) : (s.raise .illegalCmd).d2 = s.d2 := rfl
@[simp] theorem raise_illegal_valid (s : State) : (s.raise .illegalCmd).valid = s.valid := rfl
@[simp] theorem raise_illegal_err (s : State) : (s.raise .illegalCmd).err = true := rfl
@[simp] theorem raise_illegal_errcode (s : State) : (s.raise .illegalCmd).errcode = 2#2 := rfl
@[simp] theorem raise_illegal_expected (s : State) : (s.raise .illegalCmd).expected = s.expected := rfl
@[simp] theorem raise_illegal_actual (s : State) : (s.raise .illegalCmd).actual = s.actual := rfl
@[simp] theorem raise_illegal_obuf (s : State) : (s.raise .illegalCmd).obuf = s.obuf := rfl
@[simp] theorem raise_illegal_olen (s : State) : (s.raise .illegalCmd).olen = s.olen := rfl
@[simp] theorem raise_illegal_held (s : State) : (s.raise .illegalCmd).held = s.held := rfl
@[simp] theorem raise_illegal_rst (s : State) : (s.raise .illegalCmd).rst = s.rst := rfl
@[simp] theorem raise_illegal_turns (s : State) : (s.raise .illegalCmd).turns = s.turns := rfl
@[simp] theorem raise_illegal_observed (s : State) : (s.raise .illegalCmd).observed = s.observed := rfl
@[simp] theorem raise_illegal_resets (s : State) : (s.raise .illegalCmd).resets = s.resets := rfl

/-! ### `raise_size` -/

@[simp] theorem raise_size_hbuf (s : State) (x a : Word) : (s.raise (.sizeMismatch x a)).hbuf = s.hbuf := rfl
@[simp] theorem raise_size_hlen (s : State) (x a : Word) : (s.raise (.sizeMismatch x a)).hlen = s.hlen := rfl
@[simp] theorem raise_size_nbuf (s : State) (x a : Word) : (s.raise (.sizeMismatch x a)).nbuf = s.nbuf := rfl
@[simp] theorem raise_size_nlen (s : State) (x a : Word) : (s.raise (.sizeMismatch x a)).nlen = s.nlen := rfl
@[simp] theorem raise_size_nonce (s : State) (x a : Word) : (s.raise (.sizeMismatch x a)).nonce = s.nonce := rfl
@[simp] theorem raise_size_cmdr (s : State) (x a : Word) : (s.raise (.sizeMismatch x a)).cmdr = s.cmdr := rfl
@[simp] theorem raise_size_phase (s : State) (x a : Word) : (s.raise (.sizeMismatch x a)).phase = Phase.respond := rfl
@[simp] theorem raise_size_wbuf (s : State) (x a : Word) : (s.raise (.sizeMismatch x a)).wbuf = s.wbuf := rfl
@[simp] theorem raise_size_row (s : State) (x a : Word) : (s.raise (.sizeMismatch x a)).row = s.row := rfl
@[simp] theorem raise_size_col (s : State) (x a : Word) : (s.raise (.sizeMismatch x a)).col = s.col := rfl
@[simp] theorem raise_size_acc (s : State) (x a : Word) : (s.raise (.sizeMismatch x a)).acc = s.acc := rfl
@[simp] theorem raise_size_i (s : State) (x a : Word) : (s.raise (.sizeMismatch x a)).i = s.i := rfl
@[simp] theorem raise_size_j (s : State) (x a : Word) : (s.raise (.sizeMismatch x a)).j = s.j := rfl
@[simp] theorem raise_size_wp (s : State) (x a : Word) : (s.raise (.sizeMismatch x a)).wp = s.wp := rfl
@[simp] theorem raise_size_d1 (s : State) (x a : Word) : (s.raise (.sizeMismatch x a)).d1 = s.d1 := rfl
@[simp] theorem raise_size_d2 (s : State) (x a : Word) : (s.raise (.sizeMismatch x a)).d2 = s.d2 := rfl
@[simp] theorem raise_size_valid (s : State) (x a : Word) : (s.raise (.sizeMismatch x a)).valid = s.valid := rfl
@[simp] theorem raise_size_err (s : State) (x a : Word) : (s.raise (.sizeMismatch x a)).err = true := rfl
@[simp] theorem raise_size_errcode (s : State) (x a : Word) : (s.raise (.sizeMismatch x a)).errcode = 1#2 := rfl
@[simp] theorem raise_size_expected (s : State) (x a : Word) : (s.raise (.sizeMismatch x a)).expected = x := rfl
@[simp] theorem raise_size_actual (s : State) (x a : Word) : (s.raise (.sizeMismatch x a)).actual = a := rfl
@[simp] theorem raise_size_obuf (s : State) (x a : Word) : (s.raise (.sizeMismatch x a)).obuf = s.obuf := rfl
@[simp] theorem raise_size_olen (s : State) (x a : Word) : (s.raise (.sizeMismatch x a)).olen = s.olen := rfl
@[simp] theorem raise_size_held (s : State) (x a : Word) : (s.raise (.sizeMismatch x a)).held = s.held := rfl
@[simp] theorem raise_size_rst (s : State) (x a : Word) : (s.raise (.sizeMismatch x a)).rst = s.rst := rfl
@[simp] theorem raise_size_turns (s : State) (x a : Word) : (s.raise (.sizeMismatch x a)).turns = s.turns := rfl
@[simp] theorem raise_size_observed (s : State) (x a : Word) : (s.raise (.sizeMismatch x a)).observed = s.observed := rfl
@[simp] theorem raise_size_resets (s : State) (x a : Word) : (s.raise (.sizeMismatch x a)).resets = s.resets := rfl

/-! ### `pushHeader` -/

@[simp] theorem pushHeader_hlen (s : State) (v : Word) : (s.pushHeader v).hlen = countUp s.hlen := rfl
@[simp] theorem pushHeader_nbuf (s : State) (v : Word) : (s.pushHeader v).nbuf = s.nbuf := rfl
@[simp] theorem pushHeader_nlen (s : State) (v : Word) : (s.pushHeader v).nlen = s.nlen := rfl
@[simp] theorem pushHeader_nonce (s : State) (v : Word) : (s.pushHeader v).nonce = s.nonce := rfl
@[simp] theorem pushHeader_cmdr (s : State) (v : Word) : (s.pushHeader v).cmdr = s.cmdr := rfl
@[simp] theorem pushHeader_phase (s : State) (v : Word) : (s.pushHeader v).phase = s.phase := rfl
@[simp] theorem pushHeader_wbuf (s : State) (v : Word) : (s.pushHeader v).wbuf = s.wbuf := rfl
@[simp] theorem pushHeader_row (s : State) (v : Word) : (s.pushHeader v).row = s.row := rfl
@[simp] theorem pushHeader_col (s : State) (v : Word) : (s.pushHeader v).col = s.col := rfl
@[simp] theorem pushHeader_acc (s : State) (v : Word) : (s.pushHeader v).acc = s.acc := rfl
@[simp] theorem pushHeader_i (s : State) (v : Word) : (s.pushHeader v).i = s.i := rfl
@[simp] theorem pushHeader_j (s : State) (v : Word) : (s.pushHeader v).j = s.j := rfl
@[simp] theorem pushHeader_wp (s : State) (v : Word) : (s.pushHeader v).wp = s.wp := rfl
@[simp] theorem pushHeader_d1 (s : State) (v : Word) : (s.pushHeader v).d1 = s.d1 := rfl
@[simp] theorem pushHeader_d2 (s : State) (v : Word) : (s.pushHeader v).d2 = s.d2 := rfl
@[simp] theorem pushHeader_valid (s : State) (v : Word) : (s.pushHeader v).valid = s.valid := rfl
@[simp] theorem pushHeader_err (s : State) (v : Word) : (s.pushHeader v).err = s.err := rfl
@[simp] theorem pushHeader_errcode (s : State) (v : Word) : (s.pushHeader v).errcode = s.errcode := rfl
@[simp] theorem pushHeader_expected (s : State) (v : Word) : (s.pushHeader v).expected = s.expected := rfl
@[simp] theorem pushHeader_actual (s : State) (v : Word) : (s.pushHeader v).actual = s.actual := rfl
@[simp] theorem pushHeader_obuf (s : State) (v : Word) : (s.pushHeader v).obuf = s.obuf := rfl
@[simp] theorem pushHeader_olen (s : State) (v : Word) : (s.pushHeader v).olen = s.olen := rfl
@[simp] theorem pushHeader_held (s : State) (v : Word) : (s.pushHeader v).held = s.held := rfl
@[simp] theorem pushHeader_rst (s : State) (v : Word) : (s.pushHeader v).rst = s.rst := rfl
@[simp] theorem pushHeader_turns (s : State) (v : Word) : (s.pushHeader v).turns = s.turns := rfl
@[simp] theorem pushHeader_observed (s : State) (v : Word) : (s.pushHeader v).observed = s.observed := rfl
@[simp] theorem pushHeader_resets (s : State) (v : Word) : (s.pushHeader v).resets = s.resets := rfl

/-! ### `pushWide` -/

@[simp] theorem pushWide_hbuf (s : State) (v : Word) : (s.pushWide v).hbuf = s.hbuf := rfl
@[simp] theorem pushWide_hlen (s : State) (v : Word) : (s.pushWide v).hlen = s.hlen := rfl
@[simp] theorem pushWide_nlen (s : State) (v : Word) : (s.pushWide v).nlen = countUp s.nlen := rfl
@[simp] theorem pushWide_nonce (s : State) (v : Word) : (s.pushWide v).nonce = s.nonce := rfl
@[simp] theorem pushWide_cmdr (s : State) (v : Word) : (s.pushWide v).cmdr = s.cmdr := rfl
@[simp] theorem pushWide_phase (s : State) (v : Word) : (s.pushWide v).phase = s.phase := rfl
@[simp] theorem pushWide_wbuf (s : State) (v : Word) : (s.pushWide v).wbuf = s.wbuf := rfl
@[simp] theorem pushWide_row (s : State) (v : Word) : (s.pushWide v).row = s.row := rfl
@[simp] theorem pushWide_col (s : State) (v : Word) : (s.pushWide v).col = s.col := rfl
@[simp] theorem pushWide_acc (s : State) (v : Word) : (s.pushWide v).acc = s.acc := rfl
@[simp] theorem pushWide_i (s : State) (v : Word) : (s.pushWide v).i = s.i := rfl
@[simp] theorem pushWide_j (s : State) (v : Word) : (s.pushWide v).j = s.j := rfl
@[simp] theorem pushWide_wp (s : State) (v : Word) : (s.pushWide v).wp = s.wp := rfl
@[simp] theorem pushWide_d1 (s : State) (v : Word) : (s.pushWide v).d1 = s.d1 := rfl
@[simp] theorem pushWide_d2 (s : State) (v : Word) : (s.pushWide v).d2 = s.d2 := rfl
@[simp] theorem pushWide_valid (s : State) (v : Word) : (s.pushWide v).valid = s.valid := rfl
@[simp] theorem pushWide_err (s : State) (v : Word) : (s.pushWide v).err = s.err := rfl
@[simp] theorem pushWide_errcode (s : State) (v : Word) : (s.pushWide v).errcode = s.errcode := rfl
@[simp] theorem pushWide_expected (s : State) (v : Word) : (s.pushWide v).expected = s.expected := rfl
@[simp] theorem pushWide_actual (s : State) (v : Word) : (s.pushWide v).actual = s.actual := rfl
@[simp] theorem pushWide_obuf (s : State) (v : Word) : (s.pushWide v).obuf = s.obuf := rfl
@[simp] theorem pushWide_olen (s : State) (v : Word) : (s.pushWide v).olen = s.olen := rfl
@[simp] theorem pushWide_held (s : State) (v : Word) : (s.pushWide v).held = s.held := rfl
@[simp] theorem pushWide_rst (s : State) (v : Word) : (s.pushWide v).rst = s.rst := rfl
@[simp] theorem pushWide_turns (s : State) (v : Word) : (s.pushWide v).turns = s.turns := rfl
@[simp] theorem pushWide_observed (s : State) (v : Word) : (s.pushWide v).observed = s.observed := rfl
@[simp] theorem pushWide_resets (s : State) (v : Word) : (s.pushWide v).resets = s.resets := rfl

/-! ### `assertReset` -/

@[simp] theorem assertReset_hlen (s : State) : (s.assertReset).hlen = 0#32 := by unfold State.assertReset; rfl
@[simp] theorem assertReset_nlen (s : State) : (s.assertReset).nlen = 0#32 := by unfold State.assertReset; rfl
@[simp] theorem assertReset_nonce (s : State) : (s.assertReset).nonce = 0#32 := by unfold State.assertReset; rfl
@[simp] theorem assertReset_cmdr (s : State) : (s.assertReset).cmdr = 0#32 := by unfold State.assertReset; rfl
@[simp] theorem assertReset_phase (s : State) : (s.assertReset).phase = Phase.idle := by unfold State.assertReset; rfl
@[simp] theorem assertReset_valid (s : State) : (s.assertReset).valid = false := by unfold State.assertReset; rfl
@[simp] theorem assertReset_err (s : State) : (s.assertReset).err = false := by unfold State.assertReset; rfl
@[simp] theorem assertReset_errcode (s : State) : (s.assertReset).errcode = 0#2 := by unfold State.assertReset; rfl
@[simp] theorem assertReset_expected (s : State) : (s.assertReset).expected = 0#32 := by unfold State.assertReset; rfl
@[simp] theorem assertReset_actual (s : State) : (s.assertReset).actual = 0#32 := by unfold State.assertReset; rfl
@[simp] theorem assertReset_olen (s : State) : (s.assertReset).olen = 0#8 := by unfold State.assertReset; rfl
@[simp] theorem assertReset_held (s : State) : (s.assertReset).held = [] := by unfold State.assertReset; rfl
@[simp] theorem assertReset_rst (s : State) : (s.assertReset).rst = true := by unfold State.assertReset; rfl
@[simp] theorem assertReset_turns (s : State) : (s.assertReset).turns = s.turns := by unfold State.assertReset; rfl
@[simp] theorem assertReset_observed (s : State) : (s.assertReset).observed = s.observed := by unfold State.assertReset; rfl
@[simp] theorem assertReset_resets (s : State) : (s.assertReset).resets = s.resets + 1 := by unfold State.assertReset; rfl

/-! ### `seedWith` -/

@[simp] theorem seedWith_hbuf (s : State) (hash : Hash) : (seedWith hash s).hbuf = s.hbuf := rfl
@[simp] theorem seedWith_hlen (s : State) (hash : Hash) : (seedWith hash s).hlen = s.hlen := rfl
@[simp] theorem seedWith_nbuf (s : State) (hash : Hash) : (seedWith hash s).nbuf = s.nbuf := rfl
@[simp] theorem seedWith_nlen (s : State) (hash : Hash) : (seedWith hash s).nlen = s.nlen := rfl
@[simp] theorem seedWith_nonce (s : State) (hash : Hash) : (seedWith hash s).nonce = s.nonce := rfl
@[simp] theorem seedWith_cmdr (s : State) (hash : Hash) : (seedWith hash s).cmdr = s.cmdr := rfl
@[simp] theorem seedWith_phase (s : State) (hash : Hash) : (seedWith hash s).phase = Phase.chain := rfl
@[simp] theorem seedWith_wbuf (s : State) (hash : Hash) : (seedWith hash s).wbuf = s.wbuf := rfl
@[simp] theorem seedWith_row (s : State) (hash : Hash) : (seedWith hash s).row = hash s.headerWork := rfl
@[simp] theorem seedWith_col (s : State) (hash : Hash) : (seedWith hash s).col = hash s.headerWork := rfl
@[simp] theorem seedWith_acc (s : State) (hash : Hash) : (seedWith hash s).acc = Vector.replicate 32 0#32 := rfl
@[simp] theorem seedWith_i (s : State) (hash : Hash) : (seedWith hash s).i = 0#6 := rfl
@[simp] theorem seedWith_j (s : State) (hash : Hash) : (seedWith hash s).j = 0#6 := rfl
@[simp] theorem seedWith_wp (s : State) (hash : Hash) : (seedWith hash s).wp = s.wp := rfl
@[simp] theorem seedWith_d1 (s : State) (hash : Hash) : (seedWith hash s).d1 = s.d1 := rfl
@[simp] theorem seedWith_d2 (s : State) (hash : Hash) : (seedWith hash s).d2 = s.d2 := rfl
@[simp] theorem seedWith_valid (s : State) (hash : Hash) : (seedWith hash s).valid = s.valid := rfl
@[simp] theorem seedWith_err (s : State) (hash : Hash) : (seedWith hash s).err = s.err := rfl
@[simp] theorem seedWith_errcode (s : State) (hash : Hash) : (seedWith hash s).errcode = s.errcode := rfl
@[simp] theorem seedWith_expected (s : State) (hash : Hash) : (seedWith hash s).expected = s.expected := rfl
@[simp] theorem seedWith_actual (s : State) (hash : Hash) : (seedWith hash s).actual = s.actual := rfl
@[simp] theorem seedWith_obuf (s : State) (hash : Hash) : (seedWith hash s).obuf = s.obuf := rfl
@[simp] theorem seedWith_olen (s : State) (hash : Hash) : (seedWith hash s).olen = s.olen := rfl
@[simp] theorem seedWith_held (s : State) (hash : Hash) : (seedWith hash s).held = s.held := rfl
@[simp] theorem seedWith_rst (s : State) (hash : Hash) : (seedWith hash s).rst = s.rst := rfl
@[simp] theorem seedWith_turns (s : State) (hash : Hash) : (seedWith hash s).turns = s.turns := rfl
@[simp] theorem seedWith_observed (s : State) (hash : Hash) : (seedWith hash s).observed = s.observed := rfl
@[simp] theorem seedWith_resets (s : State) (hash : Hash) : (seedWith hash s).resets = s.resets := rfl

/-! ### `chainWith` -/

@[simp] theorem chainWith_hbuf (s : State) (hash : Hash) : (chainWith hash s).hbuf = s.hbuf := rfl
@[simp] theorem chainWith_hlen (s : State) (hash : Hash) : (chainWith hash s).hlen = s.hlen := rfl
@[simp] theorem chainWith_nbuf (s : State) (hash : Hash) : (chainWith hash s).nbuf = s.nbuf := rfl
@[simp] theorem chainWith_nlen (s : State) (hash : Hash) : (chainWith hash s).nlen = s.nlen := rfl
@[simp] theorem chainWith_nonce (s : State) (hash : Hash) : (chainWith hash s).nonce = s.nonce := rfl
@[simp] theorem chainWith_cmdr (s : State) (hash : Hash) : (chainWith hash s).cmdr = s.cmdr := rfl
@[simp] theorem chainWith_phase (s : State) (hash : Hash) : (chainWith hash s).phase = Phase.mac := rfl
@[simp] theorem chainWith_wbuf (s : State) (hash : Hash) : (chainWith hash s).wbuf = s.wbuf := rfl
@[simp] theorem chainWith_row (s : State) (hash : Hash) : (chainWith hash s).row = s.row := rfl
@[simp] theorem chainWith_col (s : State) (hash : Hash) : (chainWith hash s).col = hash s.col.toList := rfl
@[simp] theorem chainWith_acc (s : State) (hash : Hash) : (chainWith hash s).acc = s.acc := rfl
@[simp] theorem chainWith_i (s : State) (hash : Hash) : (chainWith hash s).i = s.i := rfl
@[simp] theorem chainWith_j (s : State) (hash : Hash) : (chainWith hash s).j = 0#6 := rfl
@[simp] theorem chainWith_wp (s : State) (hash : Hash) : (chainWith hash s).wp = s.wp := rfl
@[simp] theorem chainWith_d1 (s : State) (hash : Hash) : (chainWith hash s).d1 = s.d1 := rfl
@[simp] theorem chainWith_d2 (s : State) (hash : Hash) : (chainWith hash s).d2 = s.d2 := rfl
@[simp] theorem chainWith_valid (s : State) (hash : Hash) : (chainWith hash s).valid = s.valid := rfl
@[simp] theorem chainWith_err (s : State) (hash : Hash) : (chainWith hash s).err = s.err := rfl
@[simp] theorem chainWith_errcode (s : State) (hash : Hash) : (chainWith hash s).errcode = s.errcode := rfl
@[simp] theorem chainWith_expected (s : State) (hash : Hash) : (chainWith hash s).expected = s.expected := rfl
@[simp] theorem chainWith_actual (s : State) (hash : Hash) : (chainWith hash s).actual = s.actual := rfl
@[simp] theorem chainWith_obuf (s : State) (hash : Hash) : (chainWith hash s).obuf = s.obuf := rfl
@[simp] theorem chainWith_olen (s : State) (hash : Hash) : (chainWith hash s).olen = s.olen := rfl
@[simp] theorem chainWith_held (s : State) (hash : Hash) : (chainWith hash s).held = s.held := rfl
@[simp] theorem chainWith_rst (s : State) (hash : Hash) : (chainWith hash s).rst = s.rst := rfl
@[simp] theorem chainWith_turns (s : State) (hash : Hash) : (chainWith hash s).turns = s.turns := rfl
@[simp] theorem chainWith_observed (s : State) (hash : Hash) : (chainWith hash s).observed = s.observed := rfl
@[simp] theorem chainWith_resets (s : State) (hash : Hash) : (chainWith hash s).resets = s.resets := rfl

/-! ### `macAdvance` -/

@[simp] theorem macAdvance_hbuf (s : State) : (macAdvance s).hbuf = s.hbuf := by
  simp only [macAdvance]; split <;> (try split) <;> rfl
@[simp] theorem macAdvance_hlen (s : State) : (macAdvance s).hlen = s.hlen := by
  simp only [macAdvance]; split <;> (try split) <;> rfl
@[simp] theorem macAdvance_nbuf (s : State) : (macAdvance s).nbuf = s.nbuf := by
  simp only [macAdvance]; split <;> (try split) <;> rfl
@[simp] theorem macAdvance_nlen (s : State) : (macAdvance s).nlen = s.nlen := by
  simp only [macAdvance]; split <;> (try split) <;> rfl
@[simp] theorem macAdvance_nonce (s : State) : (macAdvance s).nonce = s.nonce := by
  simp only [macAdvance]; split <;> (try split) <;> rfl
@[simp] theorem macAdvance_cmdr (s : State) : (macAdvance s).cmdr = s.cmdr := by
  simp only [macAdvance]; split <;> (try split) <;> rfl
@[simp] theorem macAdvance_wbuf (s : State) : (macAdvance s).wbuf = s.wbuf := by
  simp only [macAdvance]; split <;> (try split) <;> rfl
@[simp] theorem macAdvance_row (s : State) : (macAdvance s).row = s.row := by
  simp only [macAdvance]; split <;> (try split) <;> rfl
@[simp] theorem macAdvance_col (s : State) : (macAdvance s).col = s.col := by
  simp only [macAdvance]; split <;> (try split) <;> rfl
@[simp] theorem macAdvance_acc (s : State) : (macAdvance s).acc = s.acc := by
  simp only [macAdvance]; split <;> (try split) <;> rfl
@[simp] theorem macAdvance_wp (s : State) : (macAdvance s).wp = s.wp := by
  simp only [macAdvance]; split <;> (try split) <;> rfl
@[simp] theorem macAdvance_d1 (s : State) : (macAdvance s).d1 = s.d1 := by
  simp only [macAdvance]; split <;> (try split) <;> rfl
@[simp] theorem macAdvance_d2 (s : State) : (macAdvance s).d2 = s.d2 := by
  simp only [macAdvance]; split <;> (try split) <;> rfl
@[simp] theorem macAdvance_valid (s : State) : (macAdvance s).valid = s.valid := by
  simp only [macAdvance]; split <;> (try split) <;> rfl
@[simp] theorem macAdvance_err (s : State) : (macAdvance s).err = s.err := by
  simp only [macAdvance]; split <;> (try split) <;> rfl
@[simp] theorem macAdvance_errcode (s : State) : (macAdvance s).errcode = s.errcode := by
  simp only [macAdvance]; split <;> (try split) <;> rfl
@[simp] theorem macAdvance_expected (s : State) : (macAdvance s).expected = s.expected := by
  simp only [macAdvance]; split <;> (try split) <;> rfl
@[simp] theorem macAdvance_actual (s : State) : (macAdvance s).actual = s.actual := by
  simp only [macAdvance]; split <;> (try split) <;> rfl
@[simp] theorem macAdvance_obuf (s : State) : (macAdvance s).obuf = s.obuf := by
  simp only [macAdvance]; split <;> (try split) <;> rfl
@[simp] theorem macAdvance_olen (s : State) : (macAdvance s).olen = s.olen := by
  simp only [macAdvance]; split <;> (try split) <;> rfl
@[simp] theorem macAdvance_held (s : State) : (macAdvance s).held = s.held := by
  simp only [macAdvance]; split <;> (try split) <;> rfl
@[simp] theorem macAdvance_rst (s : State) : (macAdvance s).rst = s.rst := by
  simp only [macAdvance]; split <;> (try split) <;> rfl
@[simp] theorem macAdvance_turns (s : State) : (macAdvance s).turns = s.turns := by
  simp only [macAdvance]; split <;> (try split) <;> rfl
@[simp] theorem macAdvance_observed (s : State) : (macAdvance s).observed = s.observed := by
  simp only [macAdvance]; split <;> (try split) <;> rfl
@[simp] theorem macAdvance_resets (s : State) : (macAdvance s).resets = s.resets := by
  simp only [macAdvance]; split <;> (try split) <;> rfl

/-! ### `compressWith` -/

@[simp] theorem compressWith_hbuf (s : State) (hash : Hash) : (compressWith hash s).hbuf = s.hbuf := rfl
@[simp] theorem compressWith_hlen (s : State) (hash : Hash) : (compressWith hash s).hlen = s.hlen := rfl
@[simp] theorem compressWith_nbuf (s : State) (hash : Hash) : (compressWith hash s).nbuf = s.nbuf := rfl
@[simp] theorem compressWith_nlen (s : State) (hash : Hash) : (compressWith hash s).nlen = s.nlen := rfl
@[simp] theorem compressWith_nonce (s : State) (hash : Hash) : (compressWith hash s).nonce = s.nonce := rfl
@[simp] theorem compressWith_cmdr (s : State) (hash : Hash) : (compressWith hash s).cmdr = s.cmdr := rfl
@[simp] theorem compressWith_phase (s : State) (hash : Hash) : (compressWith hash s).phase = compressTarget s := rfl
@[simp] theorem compressWith_wbuf (s : State) (hash : Hash) : (compressWith hash s).wbuf = s.wbuf := rfl
@[simp] theorem compressWith_row (s : State) (hash : Hash) : (compressWith hash s).row = s.row := rfl
@[simp] theorem compressWith_col (s : State) (hash : Hash) : (compressWith hash s).col = s.col := rfl
@[simp] theorem compressWith_acc (s : State) (hash : Hash) : (compressWith hash s).acc = s.acc := rfl
@[simp] theorem compressWith_i (s : State) (hash : Hash) : (compressWith hash s).i = s.i := rfl
@[simp] theorem compressWith_j (s : State) (hash : Hash) : (compressWith hash s).j = s.j := rfl
@[simp] theorem compressWith_wp (s : State) (hash : Hash) : (compressWith hash s).wp = hash (serialise s.acc) := rfl
@[simp] theorem compressWith_d1 (s : State) (hash : Hash) : (compressWith hash s).d1 = s.d1 := rfl
@[simp] theorem compressWith_d2 (s : State) (hash : Hash) : (compressWith hash s).d2 = s.d2 := rfl
@[simp] theorem compressWith_valid (s : State) (hash : Hash) : (compressWith hash s).valid = s.valid := rfl
@[simp] theorem compressWith_err (s : State) (hash : Hash) : (compressWith hash s).err = s.err := rfl
@[simp] theorem compressWith_errcode (s : State) (hash : Hash) : (compressWith hash s).errcode = s.errcode := rfl
@[simp] theorem compressWith_expected (s : State) (hash : Hash) : (compressWith hash s).expected = s.expected := rfl
@[simp] theorem compressWith_actual (s : State) (hash : Hash) : (compressWith hash s).actual = s.actual := rfl
@[simp] theorem compressWith_obuf (s : State) (hash : Hash) : (compressWith hash s).obuf = s.obuf := rfl
@[simp] theorem compressWith_olen (s : State) (hash : Hash) : (compressWith hash s).olen = s.olen := rfl
@[simp] theorem compressWith_held (s : State) (hash : Hash) : (compressWith hash s).held = s.held := rfl
@[simp] theorem compressWith_rst (s : State) (hash : Hash) : (compressWith hash s).rst = s.rst := rfl
@[simp] theorem compressWith_turns (s : State) (hash : Hash) : (compressWith hash s).turns = s.turns := rfl
@[simp] theorem compressWith_observed (s : State) (hash : Hash) : (compressWith hash s).observed = s.observed := rfl
@[simp] theorem compressWith_resets (s : State) (hash : Hash) : (compressWith hash s).resets = s.resets := rfl

/-! ### `hash1With` -/

@[simp] theorem hash1With_hbuf (s : State) (hash : Hash) : (hash1With hash s).hbuf = s.hbuf := rfl
@[simp] theorem hash1With_hlen (s : State) (hash : Hash) : (hash1With hash s).hlen = s.hlen := rfl
@[simp] theorem hash1With_nbuf (s : State) (hash : Hash) : (hash1With hash s).nbuf = s.nbuf := rfl
@[simp] theorem hash1With_nlen (s : State) (hash : Hash) : (hash1With hash s).nlen = s.nlen := rfl
@[simp] theorem hash1With_nonce (s : State) (hash : Hash) : (hash1With hash s).nonce = s.nonce := rfl
@[simp] theorem hash1With_cmdr (s : State) (hash : Hash) : (hash1With hash s).cmdr = s.cmdr := rfl
@[simp] theorem hash1With_phase (s : State) (hash : Hash) : (hash1With hash s).phase = Phase.hash2 := rfl
@[simp] theorem hash1With_wbuf (s : State) (hash : Hash) : (hash1With hash s).wbuf = s.wbuf := rfl
@[simp] theorem hash1With_row (s : State) (hash : Hash) : (hash1With hash s).row = s.row := rfl
@[simp] theorem hash1With_col (s : State) (hash : Hash) : (hash1With hash s).col = s.col := rfl
@[simp] theorem hash1With_acc (s : State) (hash : Hash) : (hash1With hash s).acc = s.acc := rfl
@[simp] theorem hash1With_i (s : State) (hash : Hash) : (hash1With hash s).i = s.i := rfl
@[simp] theorem hash1With_j (s : State) (hash : Hash) : (hash1With hash s).j = s.j := rfl
@[simp] theorem hash1With_wp (s : State) (hash : Hash) : (hash1With hash s).wp = s.wp := rfl
@[simp] theorem hash1With_d2 (s : State) (hash : Hash) : (hash1With hash s).d2 = s.d2 := rfl
@[simp] theorem hash1With_valid (s : State) (hash : Hash) : (hash1With hash s).valid = s.valid := rfl
@[simp] theorem hash1With_err (s : State) (hash : Hash) : (hash1With hash s).err = s.err := rfl
@[simp] theorem hash1With_errcode (s : State) (hash : Hash) : (hash1With hash s).errcode = s.errcode := rfl
@[simp] theorem hash1With_expected (s : State) (hash : Hash) : (hash1With hash s).expected = s.expected := rfl
@[simp] theorem hash1With_actual (s : State) (hash : Hash) : (hash1With hash s).actual = s.actual := rfl
@[simp] theorem hash1With_obuf (s : State) (hash : Hash) : (hash1With hash s).obuf = s.obuf := rfl
@[simp] theorem hash1With_olen (s : State) (hash : Hash) : (hash1With hash s).olen = s.olen := rfl
@[simp] theorem hash1With_held (s : State) (hash : Hash) : (hash1With hash s).held = s.held := rfl
@[simp] theorem hash1With_rst (s : State) (hash : Hash) : (hash1With hash s).rst = s.rst := rfl
@[simp] theorem hash1With_turns (s : State) (hash : Hash) : (hash1With hash s).turns = s.turns := rfl
@[simp] theorem hash1With_observed (s : State) (hash : Hash) : (hash1With hash s).observed = s.observed := rfl
@[simp] theorem hash1With_resets (s : State) (hash : Hash) : (hash1With hash s).resets = s.resets := rfl

/-! ### `hash2With` -/

@[simp] theorem hash2With_hbuf (s : State) (hash : Hash) : (hash2With hash s).hbuf = s.hbuf := rfl
@[simp] theorem hash2With_hlen (s : State) (hash : Hash) : (hash2With hash s).hlen = s.hlen := rfl
@[simp] theorem hash2With_nbuf (s : State) (hash : Hash) : (hash2With hash s).nbuf = s.nbuf := rfl
@[simp] theorem hash2With_nlen (s : State) (hash : Hash) : (hash2With hash s).nlen = s.nlen := rfl
@[simp] theorem hash2With_nonce (s : State) (hash : Hash) : (hash2With hash s).nonce = s.nonce := rfl
@[simp] theorem hash2With_cmdr (s : State) (hash : Hash) : (hash2With hash s).cmdr = s.cmdr := rfl
@[simp] theorem hash2With_phase (s : State) (hash : Hash) : (hash2With hash s).phase = Phase.respond := rfl
@[simp] theorem hash2With_wbuf (s : State) (hash : Hash) : (hash2With hash s).wbuf = s.wbuf := rfl
@[simp] theorem hash2With_row (s : State) (hash : Hash) : (hash2With hash s).row = s.row := rfl
@[simp] theorem hash2With_col (s : State) (hash : Hash) : (hash2With hash s).col = s.col := rfl
@[simp] theorem hash2With_acc (s : State) (hash : Hash) : (hash2With hash s).acc = s.acc := rfl
@[simp] theorem hash2With_i (s : State) (hash : Hash) : (hash2With hash s).i = s.i := rfl
@[simp] theorem hash2With_j (s : State) (hash : Hash) : (hash2With hash s).j = s.j := rfl
@[simp] theorem hash2With_wp (s : State) (hash : Hash) : (hash2With hash s).wp = s.wp := rfl
@[simp] theorem hash2With_d1 (s : State) (hash : Hash) : (hash2With hash s).d1 = s.d1 := rfl
@[simp] theorem hash2With_d2 (s : State) (hash : Hash) : (hash2With hash s).d2 = hash s.d1.toList := rfl
@[simp] theorem hash2With_valid (s : State) (hash : Hash) : (hash2With hash s).valid = s.valid := rfl
@[simp] theorem hash2With_err (s : State) (hash : Hash) : (hash2With hash s).err = s.err := rfl
@[simp] theorem hash2With_errcode (s : State) (hash : Hash) : (hash2With hash s).errcode = s.errcode := rfl
@[simp] theorem hash2With_expected (s : State) (hash : Hash) : (hash2With hash s).expected = s.expected := rfl
@[simp] theorem hash2With_actual (s : State) (hash : Hash) : (hash2With hash s).actual = s.actual := rfl
@[simp] theorem hash2With_obuf (s : State) (hash : Hash) : (hash2With hash s).obuf = s.obuf := rfl
@[simp] theorem hash2With_olen (s : State) (hash : Hash) : (hash2With hash s).olen = s.olen := rfl
@[simp] theorem hash2With_held (s : State) (hash : Hash) : (hash2With hash s).held = s.held := rfl
@[simp] theorem hash2With_rst (s : State) (hash : Hash) : (hash2With hash s).rst = s.rst := rfl
@[simp] theorem hash2With_turns (s : State) (hash : Hash) : (hash2With hash s).turns = s.turns := rfl
@[simp] theorem hash2With_observed (s : State) (hash : Hash) : (hash2With hash s).observed = s.observed := rfl
@[simp] theorem hash2With_resets (s : State) (hash : Hash) : (hash2With hash s).resets = s.resets := rfl

/-! ### Derived values: OP and the headers depend on CMDR, HBUF and WBUF only -/

theorem op_congr {s t : State} (h : t.cmdr = s.cmdr) : t.op = s.op := by simp [State.op, h]

theorem headerIn_congr {s t : State} (h : t.cmdr = s.cmdr) (hb : t.hbuf = s.hbuf) : t.headerIn = s.headerIn := by
  simp [State.headerIn, op_congr h, hb]

theorem headerWork_congr {s t : State} (h : t.cmdr = s.cmdr) (hw : t.wbuf = s.wbuf) : t.headerWork = s.headerWork := by
  simp [State.headerWork, op_congr h, hw]

@[simp] theorem goto_op (s : State) (p : BitVec 4) : (s.goto p).op = s.op := rfl
@[simp] theorem goto_headerIn (s : State) (p : BitVec 4) : (s.goto p).headerIn = s.headerIn := rfl
@[simp] theorem goto_headerWork (s : State) (p : BitVec 4) : (s.goto p).headerWork = s.headerWork := rfl

end Sys2Proof.Machine
end

