-- ==== Sys2Proof/Laws/Engine.lean ====
section
/-! SUPPORT. The laws of the numbers and of the diffusion loop: the bytes of `be32` and SER, one multiply-accumulate
term as a number, a round as its partial sums, and the accumulators of WORK_PAR round by round (R63, R64, R140, R145, R151,
R155). -/

namespace Sys2Proof.Machine

theorem toList_getD {n : Nat} (b : Buffer n) (k : Nat) (h : k < n) : b.toList.getD k 0#8 = b[k] := by
  simp [List.getD_eq_getElem?_getD, List.getElem?_eq_getElem (l := b.toList) (i := k) (by simpa using h)]

theorem append_getD (a b : Bytes) (k : Nat) :
    (a ++ b).getD k 0#8 = if k < a.length then a.getD k 0#8 else b.getD (k - a.length) 0#8 := by
  split
  · next h => rw [List.getD_append _ _ _ _ h]
  · next h => rw [List.getD_append_right _ _ _ _ (by omega)]

/-- `be32` is most significant byte first (R64). -/
theorem be32_getD (v : Word) (b : Nat) (hb : b < 4) :
    (be32 v).getD b 0#8 = BitVec.ofNat 8 (v.toNat / 256 ^ (3 - b)) := by
  apply BitVec.eq_of_toNat_eq
  interval_cases b <;> simp [be32, Nat.shiftRight_eq_div_pow]

theorem flatMap_be32_getD (l : List Word) (k b : Nat) (hk : k < l.length) (hb : b < 4) :
    (l.flatMap be32).getD (4 * k + b) 0#8 = (be32 l[k]).getD b 0#8 := by
  induction l generalizing k with
  | nil => simp at hk
  | cons x xs ih =>
    rw [List.flatMap_cons, append_getD]
    cases k with
    | zero => simp [hb]
    | succ k =>
      rw [if_neg (by simp; omega)]
      have e : 4 * (k + 1) + b - (be32 x).length = 4 * k + b := by simp; omega
      rw [e, ih k (by simpa using hk)]
      simp

/-- One byte of SER (R63). -/
theorem serialise_getD (acc : Vector Word 32) (k b : Nat) (hk : k < 32) (hb : b < 4) :
    (serialise acc).getD (4 * k + b) 0#8 = BitVec.ofNat 8 ((acc[k]).toNat / 256 ^ (3 - b)) := by
  rw [serialise, flatMap_be32_getD _ _ _ (by simpa using hk) hb, be32_getD _ _ hb]
  simp

/-! ### One term -/

theorem macTerm_toNat (r c : Byte) : (macTerm r c).toNat = r.toNat * c.toNat := by
  have hr := r.isLt
  have hc := c.isLt
  have hp : r.toNat * c.toNat ≤ 255 * 255 := Nat.mul_le_mul (by omega) (by omega)
  simp only [macTerm, BitVec.toNat_mul, BitVec.toNat_setWidth]
  rw [Nat.mod_eq_of_lt (a := r.toNat) (by omega), Nat.mod_eq_of_lt (a := c.toNat) (by omega),
    Nat.mod_eq_of_lt (by omega)]

theorem accumulate_toNat (a : Word) (r c : Byte) :
    (accumulate a r c).toNat = (a.toNat + r.toNat * c.toNat) % 2 ^ 32 := by
  simp [accumulate, macTerm_toNat]

theorem accumulate_eq (a : Word) (r c : Byte) : accumulate a r c = a + macTerm r c := rfl

/-! ### One round -/

theorem zip_getElem (row col : Digest) (n : Nat) (h : n < (row.toList.zip col.toList).length) :
    (row.toList.zip col.toList)[n] = (row[n]'(by simpa using h), col[n]'(by simpa using h)) := by
  simp

theorem partialSum_zero (row col : Digest) : partialSum row col 0 = 0#32 := by
  simp [partialSum, sumTerms]

/-- One MAC step takes a round's partial sum one term on (R151). -/
theorem partialSum_succ (row col : Digest) (n : Nat) (h : n < 32) :
    partialSum row col (n + 1) = accumulate (partialSum row col n) row[n] col[n] := by
  have hl : n < (row.toList.zip col.toList).length := by simpa using h
  simp only [partialSum, sumTerms, List.take_succ_eq_append_getElem hl, List.foldl_append, List.foldl_cons,
    List.foldl_nil, zip_getElem]

theorem partialSum_all (row col : Digest) : partialSum row col 32 = roundSum row col := by
  simp only [partialSum, roundSum]
  rw [List.take_of_length_le (by simp)]

/-! ### All rounds -/

theorem column_eq (hash : Hash) (seed : Digest) (i : Nat) :
    column hash seed i = hash (columnBefore hash seed i).toList := by
  cases i <;> rfl

theorem roundsFrom_length (hash : Hash) (row : Digest) (n : Nat) (col : Digest) :
    (roundsFrom hash row n col).length = n := by
  induction n generalizing col with
  | zero => rfl
  | succ n ih => simp [roundsFrom, ih]

theorem roundsFrom_getElem (hash : Hash) (row seed : Digest) (n i k : Nat)
    (h : k < (roundsFrom hash row n (columnBefore hash seed i)).length) :
    (roundsFrom hash row n (columnBefore hash seed i))[k] = roundSum row (column hash seed (i + k)) := by
  induction n generalizing i k with
  | zero => simp [roundsFrom] at h
  | succ n ih =>
    cases k with
    | zero => simp [roundsFrom, column_eq]
    | succ k =>
      have e : hash (columnBefore hash seed i).toList = columnBefore hash seed (i + 1) :=
        (column_eq hash seed i).symm
      simp only [roundsFrom, List.getElem_cons_succ, e]
      rw [ih (i + 1) k]
      congr 2
      omega

/-- The accumulators after the last round are those of `WORK_PAR` (R151). -/
theorem serialise_rounds (hash : Hash) (row : Digest) (acc : Vector Word 32)
    (h : ∀ k (hk : k < 32), acc[k] = roundSum row (column hash row k)) :
    serialise acc = (roundsFrom hash row 32 row).flatMap be32 := by
  have e : acc.toList = roundsFrom hash row 32 row := by
    apply List.ext_getElem
    · simp [roundsFrom_length]
    · intro k h1 h2
      have hk : k < 32 := by simpa using h1
      have := roundsFrom_getElem hash row row 32 0 k (by simpa [roundsFrom_length] using hk)
      simp only [columnBefore, Nat.zero_add] at this
      rw [this, ← h k hk]
      simp
  rw [serialise, e]

end Sys2Proof.Machine
end

