-- ==== Sys2Proof/Laws/PerInstr.lean ====
section
/-! SUPPORT. The family of statements proved instruction by instruction: the round trip of the encoding (R90, R92, R100).
Every instruction is well formed, its code is, and the decoder gives the instruction back. -/

namespace Sys2Proof.Laws.RoundTrip

/-- Decoding the encoding of `i` gives `i`, and both are well formed. -/
def Statement (i : Instr) : Prop :=
  i.wellFormed = true ∧ (encode i).wellFormed = true ∧ decode (encode i) = .ok i

theorem getWorkParA : Statement .getWorkParA := ⟨rfl, rfl, rfl⟩
theorem elemIterA : Statement .elemIterA := ⟨rfl, rfl, rfl⟩
theorem insertNonceA : Statement .insertNonceA := ⟨rfl, rfl, rfl⟩
theorem matmulWorkB : Statement .matmulWorkB := ⟨rfl, rfl, rfl⟩
theorem elemIterB : Statement .elemIterB := ⟨rfl, rfl, rfl⟩
theorem insertNonceBNarrow : Statement .insertNonceBNarrow := ⟨rfl, rfl, rfl⟩
theorem insertNonceBWide : Statement .insertNonceBWide := ⟨rfl, rfl, rfl⟩
theorem idle : Statement .idle := ⟨rfl, rfl, rfl⟩
theorem check : Statement .check := ⟨rfl, rfl, rfl⟩
theorem copy : Statement .copy := ⟨rfl, rfl, rfl⟩
theorem patch : Statement .patch := ⟨rfl, rfl, rfl⟩
theorem seed : Statement .seed := ⟨rfl, rfl, rfl⟩
theorem chain : Statement .chain := ⟨rfl, rfl, rfl⟩
theorem mac : Statement .mac := ⟨rfl, rfl, rfl⟩
theorem compress : Statement .compress := ⟨rfl, rfl, rfl⟩
theorem splice : Statement .splice := ⟨rfl, rfl, rfl⟩
theorem hash1 : Statement .hash1 := ⟨rfl, rfl, rfl⟩
theorem hash2 : Statement .hash2 := ⟨rfl, rfl, rfl⟩
theorem respond : Statement .respond := ⟨rfl, rfl, rfl⟩

end Sys2Proof.Laws.RoundTrip
end

