-- ==== Sys2Proof/Laws/Step.lean ====
section
/-! SUPPORT. What one step can do, said once: a requester write is `regWrite` whatever word it carries, and a step is a
step under reset, a reset, a held write, a read, a write or the sequencer's micro-operation. -/

namespace Sys2Proof.Machine

theorem decodeCmd_ok_iff (w : Word) (i : Instr) : decodeCmd w = .ok i ↔
    (w.toNat = 1 ∧ i = .getWorkParA ∨ w.toNat = 2 ∧ i = .elemIterA ∨ w.toNat = 3 ∧ i = .insertNonceA ∨
     w.toNat = 4 ∧ i = .matmulWorkB ∨ w.toNat = 5 ∧ i = .elemIterB ∨ w.toNat = 6 ∧ i = .insertNonceBNarrow ∨
     w.toNat = 7 ∧ i = .insertNonceBWide) := by
  have hr := reservedField_eq_zero w
  simp only [decodeCmd, ne_eq, hr, opField_toNat]
  split
  · next h =>
    constructor
    · intro h'; cases h'
    · intro h'; exfalso; omega
  · next h =>
    have h7 : w.toNat < 16 := by omega
    rw [Nat.mod_eq_of_lt h7]
    generalize w.toNat = n at *
    interval_cases n <;> simp <;> exact eq_comm

/-- A command's meaning is the requester's write of its own word. -/
theorem exec_command {i : Instr} {w : Word} (s : State) (h : encode i = .cmd w) :
    exec i s = .next (s.regWrite ⟨0, w⟩) := by
  cases i <;> simp only [encode, Code.cmd.injEq, reduceCtorEq] at h <;> subst h <;> rfl

theorem encode_of_decodeCmd {i : Instr} {w : Word} (h : decodeCmd w = .ok i) : encode i = .cmd w := by
  rcases (decodeCmd_ok_iff w i).1 h with ⟨hw, rfl⟩ | ⟨hw, rfl⟩ | ⟨hw, rfl⟩ | ⟨hw, rfl⟩ | ⟨hw, rfl⟩ | ⟨hw, rfl⟩ | ⟨hw, rfl⟩ <;>
    exact congrArg Code.cmd (BitVec.eq_of_toNat_eq hw.symm)

/-- A requester write of any word to any register (R41, R42, R93). -/
theorem writeStep_eq (w : RegWrite) (s : State) : writeStep w s = .next (s.regWrite w) := by
  obtain ⟨n, v⟩ := w
  unfold writeStep
  by_cases hn : n = 0
  · subst hn
    simp only [if_true]
    cases hd : decodeCmd v with
    | ok i => exact exec_command s (encode_of_decodeCmd hd)
    | error e => rfl
  · simp [hn]

theorem busy_iff (s : State) : s.busy = true ↔ s.phase ≠ Phase.idle := by simp [State.busy]

theorem busy_eq_false (s : State) : s.busy = false ↔ s.phase = Phase.idle := by simp [State.busy]

theorem regWrite_busy {s : State} (w : RegWrite) (h : s.phase ≠ Phase.idle) :
    s.regWrite w = s.withHeld (s.held ++ [w]) := by
  simp [State.regWrite, (busy_iff s).2 h]

theorem regWrite_idle {s : State} (w : RegWrite) (h : s.phase = Phase.idle) : s.regWrite w = s.performWrite w := by
  simp [State.regWrite, (busy_eq_false s).2 h]

/-! ### One step, agent by agent -/

theorem step_rst {s : State} (h : s.rst = true) : step s = .next s.underReset := by
  simp [step, h]

theorem step_assertReset {s : State} {ts : List Turn} (h : s.rst = false) (ht : s.turns = .assertReset :: ts) :
    step s = .next (s.withTurns ts).assertReset := by
  unfold step; simp [h, ht, turnStep]

theorem step_held {s : State} {w : RegWrite} {ws : List RegWrite} (h : s.rst = false) (hi : s.phase = Phase.idle)
    (hh : s.held = w :: ws) (ht : s.turns.head? ≠ some .assertReset) :
    step s = .next ((s.withHeld ws).performWrite w) := by
  have hb := (busy_eq_false s).2 hi
  have e : writeStep w (s.withHeld ws) = .next ((s.withHeld ws).performWrite w) := by
    rw [writeStep_eq, regWrite_idle w (s := s.withHeld ws) hi]
  unfold step
  rcases hts : s.turns with _ | ⟨t, ts⟩
  · simpa [h, hts, hh, hb] using e
  · cases t <;> simp_all

theorem step_sequencer {s : State} (h : s.rst = false) (hb : s.busy = true ∨ s.held = []) (ht : s.turns = []) :
    step s = sequencerStep s := by
  unfold step
  rcases hh : s.held with _ | ⟨w, ws⟩
  · simp [h, ht]
  · have : s.busy = true := by simpa [hh] using hb
    simp [h, ht, this]

theorem step_turn {s : State} {t : Turn} {ts : List Turn} (h : s.rst = false) (hb : s.busy = true ∨ s.held = [])
    (ht : s.turns = t :: ts) : step s = turnStep t (s.withTurns ts) := by
  unfold step
  rcases hh : s.held with _ | ⟨w, ws⟩
  · cases t <;> simp [h, ht]
  · have : s.busy = true := by simpa [hh] using hb
    cases t <;> simp [h, ht, this]

/-- Everything a step can be. -/
theorem step_cases (s : State) :
    (s.rst = true ∧ step s = .next s.underReset) ∨
    (∃ ts, s.rst = false ∧ s.turns = .assertReset :: ts ∧ step s = .next (s.withTurns ts).assertReset) ∨
    (∃ w ws, s.rst = false ∧ s.phase = Phase.idle ∧ s.held = w :: ws ∧
      step s = .next ((s.withHeld ws).performWrite w)) ∨
    (s.rst = false ∧ (s.busy = true ∨ s.held = []) ∧
      ((∃ ts w, s.turns = .access (.regWrite w) :: ts ∧ step s = .next ((s.withTurns ts).regWrite w)) ∨
       (∃ ts o, step s = .next ((s.withTurns ts).observe o)) ∨
       (∃ ts, s.turns = .releaseReset :: ts ∧ step s = .next (s.withTurns ts)) ∨
       (∃ ts, step s = sequencerStep (s.withTurns ts)))) := by
  by_cases hrst : s.rst = true
  · exact .inl ⟨hrst, step_rst hrst⟩
  have hr : s.rst = false := by simpa using hrst
  refine .inr ?_
  by_cases hreset : ∃ ts, s.turns = .assertReset :: ts
  · obtain ⟨ts, ht⟩ := hreset
    exact .inl ⟨ts, hr, ht, step_assertReset hr ht⟩
  refine .inr ?_
  by_cases hb : s.busy = true ∨ s.held = []
  · refine .inr ⟨hr, hb, ?_⟩
    rcases ht : s.turns with _ | ⟨t, ts⟩
    · refine .inr (.inr (.inr ⟨s.turns, ?_⟩))
      exact step_sequencer hr hb ht
    · have e := step_turn hr hb ht
      cases t with
      | sequencer => exact .inr (.inr (.inr ⟨ts, e⟩))
      | assertReset => exact absurd ⟨ts, ht⟩ hreset
      | releaseReset => exact .inr (.inr (.inl ⟨ts, rfl, e⟩))
      | access a =>
        cases a with
        | regWrite w => exact .inl ⟨ts, w, rfl, e.trans (writeStep_eq w _)⟩
        | regRead n => exact .inr (.inl ⟨ts, _, e⟩)
        | outRead k => exact .inr (.inl ⟨ts, _, e⟩)
  · refine .inl ?_
    simp only [not_or, Bool.not_eq_true, busy_eq_false] at hb
    obtain ⟨w, ws, hh⟩ := List.exists_cons_of_ne_nil hb.2
    refine ⟨w, ws, hr, hb.1, hh, step_held hr hb.1 hh ?_⟩
    intro hc
    obtain ⟨ts, ht⟩ := List.head?_eq_some_iff.1 hc
    exact hreset ⟨ts, ht⟩

end Sys2Proof.Machine
end

