-- ==== Sys2Proof/Laws/Sequencer.lean ====
section
/-! SUPPORT. Everything the sequencer's step can do, said once (R31, R202): which micro-operation ran and the state it
left. -/

namespace Sys2Proof.Machine

theorem sequencerStep_of {s : State} {i : Instr} (h : decodePhase s.phase = .ok i) : sequencerStep s = exec i s := by
  simp [sequencerStep, h]

/-- The micro-operation PHASE names, with the PHASE value that names it (R100). -/
theorem decodePhase_ok_iff (p : BitVec 4) (i : Instr) : decodePhase p = .ok i ↔ encode i = .phase p := by
  revert p
  cases i <;> simp only [encode, Code.phase.injEq, reduceCtorEq] <;> decide

/-- The two endings of CHECK (R201). -/
theorem execCheck_cases {s t : State} (h : exec .check s = .next t) :
    (∃ e, checkError s.cmdr s.hlen s.nlen = some e ∧ t = s.raise e) ∨
    (checkError s.cmdr s.hlen s.nlen = none ∧ t = s.goto Phase.copy) := by
  simp only [exec, execCheck] at h
  split at h
  · next e he => exact .inl ⟨e, he, by cases h; rfl⟩
  · next he => exact .inr ⟨he, by cases h; rfl⟩

/-- The ending of MAC (R143). -/
theorem execMac_cases {s t : State} (h : exec .mac s = .next t) :
    ∃ (hi : s.i.toNat < 32) (hj : s.j.toNat < 32), t = macAdvance { s with acc := macAcc s hi hj } := by
  simp only [exec, execMac] at h
  split at h
  · next hij => exact ⟨hij.1, hij.2, by cases h; rfl⟩
  · cases h

/-- The three endings of RESPOND (R212). -/
theorem execRespond_cases {s t : State} (h : exec .respond s = .next t) :
    (s.err = true ∧ t = s.complete) ∨
    (s.err = false ∧ ∃ b, resultBytes s = some b ∧ t = (s.publish b).complete) ∨
    (s.err = false ∧ resultBytes s = none ∧ t = s.complete) := by
  simp only [exec, execRespond] at h
  split at h
  · next he => exact .inl ⟨he, by cases h; rfl⟩
  · next he =>
    have he : s.err = false := by simpa using he
    split at h
    · next b hb => exact .inr (.inl ⟨he, b, hb, by cases h; rfl⟩)
    · next hb => exact .inr (.inr ⟨he, hb, by cases h; rfl⟩)

/-- Everything the sequencer can do in one step. -/
theorem sequencerStep_cases {s t : State} (h : sequencerStep s = .next t) :
    (s.phase = Phase.idle ∧ t = s) ∨
    (s.phase = Phase.check ∧ ∃ e, checkError s.cmdr s.hlen s.nlen = some e ∧ t = s.raise e) ∨
    (s.phase = Phase.check ∧ checkError s.cmdr s.hlen s.nlen = none ∧ t = s.goto Phase.copy) ∨
    (s.phase = Phase.copy ∧ t = { s with wbuf := writeBytes s.wbuf 0 s.headerIn }.goto
      (if isInsertion s.op then Phase.patch else Phase.seed)) ∨
    (s.phase = Phase.patch ∧ t = { s with wbuf := patchedWork s }.goto Phase.respond) ∨
    (s.phase = Phase.seed ∧ t = seedWith Config.hash s) ∨
    (s.phase = Phase.chain ∧ t = chainWith Config.hash s) ∨
    (s.phase = Phase.mac ∧ ∃ (hi : s.i.toNat < 32) (hj : s.j.toNat < 32),
      t = macAdvance { s with acc := macAcc s hi hj }) ∨
    (s.phase = Phase.compress ∧ t = compressWith Config.hash s) ∨
    (s.phase = Phase.splice ∧
      t = { s with wbuf := writeBytes s.wbuf Config.workParOff s.wp.toList }.goto Phase.hash1) ∨
    (s.phase = Phase.hash1 ∧ t = hash1With Config.hash s) ∨
    (s.phase = Phase.hash2 ∧ t = hash2With Config.hash s) ∨
    (s.phase = Phase.respond ∧
      ((s.err = true ∧ t = s.complete) ∨
       (s.err = false ∧ ∃ b, resultBytes s = some b ∧ t = (s.publish b).complete) ∨
       (s.err = false ∧ resultBytes s = none ∧ t = s.complete))) := by
  unfold sequencerStep at h
  split at h
  swap
  · cases h
  · next i hd =>
    have hp := (decodePhase_ok_iff s.phase i).1 hd
    cases i <;> simp only [encode, Code.phase.injEq, reduceCtorEq] at hp
    case idle => exact .inl ⟨hp.symm, by cases h; rfl⟩
    case check =>
      rcases execCheck_cases h with ⟨e, he, rfl⟩ | ⟨he, rfl⟩
      · exact .inr (.inl ⟨hp.symm, e, he, rfl⟩)
      · exact .inr (.inr (.inl ⟨hp.symm, he, rfl⟩))
    case copy => exact .inr (.inr (.inr (.inl ⟨hp.symm, by cases h; rfl⟩)))
    case patch => exact .inr (.inr (.inr (.inr (.inl ⟨hp.symm, by cases h; rfl⟩))))
    case seed => exact .inr (.inr (.inr (.inr (.inr (.inl ⟨hp.symm, by cases h; rfl⟩)))))
    case chain => exact .inr (.inr (.inr (.inr (.inr (.inr (.inl ⟨hp.symm, by cases h; rfl⟩))))))
    case mac => exact .inr (.inr (.inr (.inr (.inr (.inr (.inr (.inl ⟨hp.symm, execMac_cases h⟩)))))))
    case compress =>
      exact .inr (.inr (.inr (.inr (.inr (.inr (.inr (.inr (.inl ⟨hp.symm, by cases h; rfl⟩))))))))
    case splice =>
      exact .inr (.inr (.inr (.inr (.inr (.inr (.inr (.inr (.inr (.inl ⟨hp.symm, by cases h; rfl⟩)))))))))
    case hash1 =>
      exact .inr (.inr (.inr (.inr (.inr (.inr (.inr (.inr (.inr (.inr (.inl ⟨hp.symm, by cases h; rfl⟩))))))))))
    case hash2 =>
      exact .inr (.inr (.inr (.inr (.inr (.inr (.inr (.inr (.inr (.inr (.inr (.inl
        ⟨hp.symm, by cases h; rfl⟩)))))))))))
    case respond =>
      exact .inr (.inr (.inr (.inr (.inr (.inr (.inr (.inr (.inr (.inr (.inr (.inr
        ⟨hp.symm, execRespond_cases h⟩)))))))))))

/-! ### MAC's three next positions (R143) -/

theorem macAdvance_lane {s : State} (hj : s.j.toNat < 31) :
    macAdvance s = { s with j := s.j + 1#6 }.goto Phase.mac := if_pos hj

theorem macAdvance_round {s : State} (hj : ¬ s.j.toNat < 31) (hi : s.i.toNat < 31) :
    macAdvance s = { s with j := 32#6, i := s.i + 1#6 }.goto Phase.chain := (if_neg hj).trans (if_pos hi)

theorem macAdvance_last {s : State} (hj : ¬ s.j.toNat < 31) (hi : ¬ s.i.toNat < 31) :
    macAdvance s = { s with j := 32#6, i := 32#6 }.goto Phase.compress := (if_neg hj).trans (if_neg hi)

/-! ### What CHECK has established -/

theorem checkError_eq_none (w h n : Word) : checkError w h n = none ↔
    illegalWord w = false ∧ h.toNat = headerLen (opField w) ∧ (opField w = 7#4 → n.toNat = 32) := by
  unfold checkError validateLength
  cases illegalWord w <;> simp only [Bool.false_eq_true, if_false, if_true, true_and]
  swap
  · simp
  by_cases h1 : h.toNat = headerLen (opField w) <;> by_cases h2 : opField w = 7#4 <;> simp [h1, h2]
  rw [h2] at h1
  simp [h1]

/-- A legal word, case by case (R92). -/
theorem legal_cases {w : Word} (h : illegalWord w = false) :
    w = 1#32 ∨ w = 2#32 ∨ w = 3#32 ∨ w = 4#32 ∨ w = 5#32 ∨ w = 6#32 ∨ w = 7#32 := by
  obtain ⟨a, b⟩ := (illegalWord_eq_false w).1 h
  have e : w = BitVec.ofNat 32 w.toNat := by simp
  generalize w.toNat = n at *
  subst e
  interval_cases n <;> simp

/-- The opcode of a command that is past CHECK, case by case. -/
theorem op_cases {s : State} (h : s.checked) :
    s.op = 1#4 ∨ s.op = 2#4 ∨ s.op = 3#4 ∨ s.op = 4#4 ∨ s.op = 5#4 ∨ s.op = 6#4 ∨ s.op = 7#4 := by
  have h' := ((checkError_eq_none _ _ _).1 h).1
  have e : s.op = opField s.cmdr := rfl
  rw [e]
  rcases legal_cases h' with h | h | h | h | h | h | h <;> rw [h] <;> decide

/-! ### Runs -/

theorem steps_zero (s : State) : steps 0 s = .next s := rfl

theorem steps_succ {s t : State} (n : Nat) (h : step s = .next t) : steps (n + 1) s = steps n t := by
  simp [steps, h]

/-- A run goes on where its first part ended. -/
theorem steps_add {s t : State} (m n : Nat) (h : steps m s = .next t) : steps (m + n) s = steps n t := by
  induction m generalizing s with
  | zero =>
    simp only [steps, Host.Outcome.next.injEq] at h
    simp [h]
  | succ m ih =>
    have e : m + 1 + n = (m + n) + 1 := by omega
    rw [e]
    simp only [steps] at h ⊢
    split at h
    · exact ih h
    · cases h
    · cases h

end Sys2Proof.Machine
end

