-- ==== Sys2Proof/Tests/Slice0.lean ====
section
/-! SUPPORT. Tests of one step or one function each, with their expected results from the spec's own tables and examples
(30_encoding.md R92 and R100, 95_test_vectors.md, the worked examples of the rules), and for every statement with
hypotheses a concrete case that meets them. -/

namespace Sys2Proof.Tests

open Sys2Proof.Machine

/-! ### Helpers -/

/-- A hundred and more bytes as one number, the first byte most significant. -/
def bytesOf (n v : Nat) : Bytes := (List.range n).map fun k => BitVec.ofNat 8 (v / 256 ^ (n - 1 - k))

/-- The ramp of 95_test_vectors.md section 2.1: byte `t` is `t mod 256`. -/
def ramp (n : Nat) : Bytes := (List.range n).map (BitVec.ofNat 8)

/-- `b * n` -/
def rep (n : Nat) (b : Byte) : Bytes := List.replicate n b

def hashState (m : Bytes) : Nat :=
  m.foldl (fun s b => (s ^^^ b.toNat) * 0x01000193 % 2 ^ 32) ((0x9E3779B9 + m.length) % 2 ^ 32)

def hashOut : Nat → Nat → Bytes
  | 0, _ => []
  | n + 1, s =>
    let s' := (s * 1664525 + 1013904223) % 2 ^ 32
    BitVec.ofNat 8 (s' / 2 ^ 24) :: hashOut n s'

theorem hashOut_length (n s : Nat) : (hashOut n s).length = n := by
  induction n generalizing s with
  | zero => rfl
  | succ n ih => simp [hashOut, ih]

/-- The toy hash `H_T` of 95_test_vectors.md section 4. -/
def toyHash : Hash := fun m => ⟨(hashOut 32 (hashState m)).toArray, by simp [hashOut_length]⟩

/-- A block in phase `p` of the command word `w`, its header of the right length and 32 bytes of wide nonce pushed. -/
def inPhase (p : BitVec 4) (w : Word) : State :=
  { State.reset with phase := p, cmdr := w, hlen := if w.toNat ≤ 3 then 217#32 else 64#32, nlen := 32#32 }

/-- The block after reset with one turn to take. -/
def withTurn (t : Turn) : State := { State.reset with turns := [t] }

/-- A requester write. -/
def writeTurn (n : Fin 16) (v : Word) : Turn := .access (.regWrite ⟨n, v⟩)

/-- A step that went on, to a state with `p`. -/
def goesTo (o : Result) (p : State → Bool) : Bool :=
  match o with
  | .next t => p t
  | .fault _ => false
  | .refused _ => false

/-! ### Well-formedness and decoding (30_encoding.md R92, R93, R100) -/

theorem test_ill_formed_zero_opcode : (Code.cmd 0x00000000#32).wellFormed = false := by decide
theorem test_ill_formed_opcode_8 : (Code.cmd 0x00000008#32).wellFormed = false := by decide
theorem test_ill_formed_reserved_bit_4 : (Code.cmd 0x00000011#32).wellFormed = false := by decide
theorem test_ill_formed_reserved_bit_31 : (Code.cmd 0x80000001#32).wellFormed = false := by decide
theorem test_ill_formed_phase_12 : (Code.phase 12#4).wellFormed = false := by decide
theorem test_ill_formed_phase_15 : (Code.phase 15#4).wellFormed = false := by decide

/-- The words of R92, bit by bit: bits 31:4 zero, OP in bits 3:0. -/
theorem test_decode_commands :
    decode (.cmd 0b00000000000000000000000000000001#32) = .ok .getWorkParA ∧
    decode (.cmd 0b00000000000000000000000000000010#32) = .ok .elemIterA ∧
    decode (.cmd 0b00000000000000000000000000000011#32) = .ok .insertNonceA ∧
    decode (.cmd 0b00000000000000000000000000000100#32) = .ok .matmulWorkB ∧
    decode (.cmd 0b00000000000000000000000000000101#32) = .ok .elemIterB ∧
    decode (.cmd 0b00000000000000000000000000000110#32) = .ok .insertNonceBNarrow ∧
    decode (.cmd 0b00000000000000000000000000000111#32) = .ok .insertNonceBWide := by decide

/-- The PHASE values of R100, bit by bit. -/
theorem test_decode_phases :
    decode (.phase 0b0000#4) = .ok .idle ∧ decode (.phase 0b0001#4) = .ok .check ∧
    decode (.phase 0b0010#4) = .ok .copy ∧ decode (.phase 0b0011#4) = .ok .patch ∧
    decode (.phase 0b0100#4) = .ok .seed ∧ decode (.phase 0b0101#4) = .ok .chain ∧
    decode (.phase 0b0110#4) = .ok .mac ∧ decode (.phase 0b0111#4) = .ok .compress ∧
    decode (.phase 0b1000#4) = .ok .splice ∧ decode (.phase 0b1001#4) = .ok .hash1 ∧
    decode (.phase 0b1010#4) = .ok .hash2 ∧ decode (.phase 0b1011#4) = .ok .respond := by decide

/-- The rejections of R93 and R100, by name (E13 to E17 of 95_test_vectors.md section 2.3). -/
theorem test_decode_rejects :
    decode (.cmd 0#32) = .error .reservedOpcode ∧ decode (.cmd 8#32) = .error .reservedOpcode ∧
    decode (.cmd 15#32) = .error .reservedOpcode ∧ decode (.cmd 0x11#32) = .error .reservedBits ∧
    decode (.cmd 0x80000001#32) = .error .reservedBits ∧ decode (.phase 12#4) = .error .reservedPhase ∧
    decode (.phase 15#4) = .error .reservedPhase := by decide

theorem test_table_words :
    decodeTableWord 32 7 = some .insertNonceBWide ∧ decodeTableWord 8 6 = some .mac ∧ decodeTableWord 8 12 = none ∧
    decodeTableWord 32 0x80000001 = none := by decide

/-! ### Placing a row's code and stepping -/

theorem test_fetch_command : step (State.reset.withFetchWord 32 4) = exec .matmulWorkB State.reset := rfl

theorem test_fetch_phase :
    step (State.reset.withFetchWord 8 5) = exec .chain { State.reset with phase := Phase.chain } := rfl

/-! ### The numbers (95_test_vectors.md sections 2.1 and 2.2) -/

/-- Section 2.1's line of `be32`. -/
theorem test_be32 : be32 376413#32 = [0x00#8, 0x05#8, 0xbe#8, 0x5d#8] ∧
    be32 0x80000000#32 = [0x80#8, 0x00#8, 0x00#8, 0x00#8] := by decide

/-- M3: the largest round. -/
theorem test_round_largest :
    sumTerms ((rep 32 0xff#8).zip (rep 32 0xff#8)) = 0x001FC020#32 := by decide +kernel

/-- M4: bytes are unsigned. -/
theorem test_round_unsigned : sumTerms ((rep 32 0x80#8).zip (rep 32 0x02#8)) = 0x00002000#32 := by decide +kernel

/-- M7: the pairing is by equal index. -/
theorem test_round_pairing : sumTerms ((ramp 32).zip (ramp 32).reverse) = 0x00001360#32 := by decide +kernel

/-- Section 2.2's serialiser vector. -/
theorem test_serialise :
    let acc := ((((Vector.replicate 32 0#32).set 0 1#32).set 1 0x00020003#32).set 31 0xAABBCCDD#32 : Vector Word 32)
    (serialise acc).take 8 = bytesOf 8 0x0000000100020003 ∧
    (serialise acc).drop 124 = bytesOf 4 0xAABBCCDD := by decide +kernel

/-- Section 4's table: `H_T` of `61 62 63`. -/
theorem test_toy_hash :
    (toyHash [0x61#8, 0x62#8, 0x63#8]).toList =
      bytesOf 32 0xf8195650fa254c22954d4012588cec924dfe5955c938bcec1bc6f8c24e899e59 := by decide +kernel

/-! ### The commands' functions (95_test_vectors.md sections 2.1, 4.1 and 4.2) -/

/-- Section 4.2. -/
theorem test_get_work_par_a :
    command toyHash { w := 1#32, hl := 217#32, hb := rep 217 0#8, n := 0#32, nl := 0#32, nb := [] } =
      .ok (bytesOf 32 0xaffd4925021fa2d14b5fab0bb02c0eb608b2a52be92aa29a3068fee33a6bfbdc) := by decide +kernel

/-- Section 4.2. -/
theorem test_elem_iter_a :
    command toyHash { w := 2#32, hl := 217#32, hb := rep 217 0#8, n := 0#32, nl := 0#32, nb := [] } =
      .ok (bytesOf 32 0xbd340f2279bb50e7bd05734e6dfb70569a2771b201487c0210b923ee06f97e74) := by decide +kernel

/-- V1. -/
theorem test_insert_nonce_a :
    command toyHash { w := 3#32, hl := 217#32, hb := rep 217 0#8, n := 376413#32, nl := 0#32, nb := [] } =
      .ok (rep 117 0#8 ++ [0x00#8, 0x05#8, 0xbe#8, 0x5d#8] ++ rep 96 0#8) := by decide +kernel

/-- Section 4.1. -/
theorem test_matmul_work_b :
    command toyHash { w := 4#32, hl := 64#32, hb := rep 64 0#8, n := 0#32, nl := 0#32, nb := [] } =
      .ok (bytesOf 32 0x3fad1c25887e5b1c43bcae1217ca86021ebcb8a8bc95fb25df2668aabe07204d) := by decide +kernel

/-- Section 4.1. -/
theorem test_elem_iter_b :
    command toyHash { w := 5#32, hl := 64#32, hb := rep 64 0#8, n := 0#32, nl := 0#32, nb := [] } =
      .ok (bytesOf 32 0x8f87962cf69b7b350876647536cde0653a53eaadb7c78e995ab1ce35cd6b1d72) := by decide +kernel

/-- V6. -/
theorem test_insert_nonce_b_narrow :
    command toyHash { w := 6#32, hl := 64#32, hb := rep 64 0#8, n := 0x12345678#32, nl := 0#32, nb := [] } =
      .ok (rep 28 0#8 ++ [0x12#8, 0x34#8, 0x56#8, 0x78#8] ++ rep 32 0#8) := by decide +kernel

/-- V8. -/
theorem test_insert_nonce_b_wide :
    command toyHash { w := 7#32, hl := 64#32, hb := rep 64 0#8, n := 0#32, nl := 32#32, nb := rep 32 0x11#8 } =
      .ok (rep 32 0x11#8 ++ rep 32 0#8) := by decide +kernel

/-! ### The phases -/

/-- E1, E4, E5, E8 to E13, E16 and E17 of section 2.3: the error CHECK raises. -/
theorem test_check_errors :
    checkError 1#32 0#32 0#32 = some (.sizeMismatch 217#32 0#32) ∧
    checkError 3#32 218#32 0#32 = some (.sizeMismatch 217#32 218#32) ∧
    checkError 4#32 217#32 0#32 = some (.sizeMismatch 64#32 217#32) ∧
    checkError 7#32 64#32 31#32 = some (.sizeMismatch 32#32 31#32) ∧
    checkError 7#32 64#32 33#32 = some (.sizeMismatch 32#32 33#32) ∧
    checkError 7#32 64#32 0#32 = some (.sizeMismatch 32#32 0#32) ∧
    checkError 7#32 10#32 5#32 = some (.sizeMismatch 64#32 10#32) ∧
    checkError 6#32 64#32 33#32 = none ∧
    checkError 0#32 64#32 0#32 = some .illegalCmd ∧
    checkError 0x11#32 217#32 0#32 = some .illegalCmd ∧
    checkError 0x80000001#32 217#32 0#32 = some .illegalCmd := by decide

/-- E2: STATUS is 14 once RESPOND has run after the failed CHECK. -/
theorem test_check_then_respond_status :
    goesTo (exec .check { inPhase Phase.check 1#32 with hlen := 64#32 }) (fun t =>
      goesTo (exec .respond t) fun u => u.status == 14#32 && u.expected == 217#32 && u.actual == 64#32 && u.hlen == 0#32)
      = true := by decide

/-- R172: a Variant B copy stops at byte 64. -/
theorem test_copy_stops_at_the_length :
    goesTo (exec .copy { inPhase Phase.copy 4#32 with hbuf := Vector.replicate 217 0xaa#8 }) (fun t =>
      slice t.wbuf 62 66 == [0xaa#8, 0xaa#8, 0#8, 0#8] && t.phase == Phase.seed) = true := by decide +kernel

/-- V3: the bytes around the nonce. -/
theorem test_patch_variant_a :
    goesTo (exec .patch { inPhase Phase.patch 3#32 with nonce := 0xFFFFFFFF#32, wbuf := Vector.replicate 217 0x11#8 })
      (fun t => slice t.wbuf 115 123 == bytesOf 8 0x1111ffffffff1111 && t.phase == Phase.respond) = true := by
  decide +kernel

/-- V9: the challenge half is untouched. -/
theorem test_patch_wide :
    goesTo (exec .patch { inPhase Phase.patch 7#32 with nbuf := Vector.replicate 32 0xbf#8, wbuf := Vector.replicate 217 0x20#8 })
      (fun t => slice t.wbuf 30 34 == bytesOf 4 0xbfbf2020) = true := by decide +kernel

/-- Section 4.1, after SEED. -/
theorem test_seed :
    (seedWith toyHash (inPhase Phase.seed 4#32)).row.toList =
      bytesOf 32 0x0d699dc38c0e24354a0282496eee42f8306ae3bf74f97f2b933d9be61a7bf206 := by decide +kernel

/-- Section 4.1, CHAIN of round 0. -/
theorem test_chain :
    (chainWith toyHash (seedWith toyHash (inPhase Phase.seed 4#32))).col.toList =
      bytesOf 32 0xc9e2539fa81cf2e9a1131f9f462cf15c358956a879160c82c42cb07d0c83052c := by decide +kernel

/-- The example of R143: `ACC[I] = 10`, `0x34 * 0xf9`, 12958. -/
theorem test_mac_example :
    goesTo (exec .mac { inPhase Phase.mac 4#32 with
        acc := (Vector.replicate 32 0#32).set 3 10#32, row := (Vector.replicate 32 0#8).set 5 0x34#8
        col := (Vector.replicate 32 0#8).set 5 0xf9#8, i := 3#6, j := 5#6 })
      (fun t => t.acc[3] == 12958#32 && t.acc[2] == 0#32 && t.j == 6#6 && t.i == 3#6 && t.phase == Phase.mac) = true := by
  decide +kernel

/-- R143 at the end of the last round. -/
theorem test_mac_last :
    goesTo (exec .mac { inPhase Phase.mac 4#32 with i := 31#6, j := 31#6 })
      (fun t => t.i == 32#6 && t.j == 32#6 && t.phase == Phase.compress) = true := by decide +kernel

/-- `H_T` of `00 * 128` (section 4): COMPRESS of zero accumulators. -/
theorem test_compress :
    (compressWith toyHash (inPhase Phase.compress 5#32)).wp.toList =
      bytesOf 32 0x2352648a69d34bbafb1beacabdb29e532c79a63c58c0d57f5fc3a0a900cc73db ∧
    (compressWith toyHash (inPhase Phase.compress 5#32)).phase = Phase.hash1 := by decide +kernel

/-- The splice boundary (section 4.3). -/
theorem test_splice :
    goesTo (exec .splice { inPhase Phase.splice 2#32 with
        wbuf := Vector.replicate 217 0xb8#8, wp := Vector.replicate 32 0xaf#8 })
      (fun t => slice t.wbuf 184 187 == [0xb8#8, 0xaf#8, 0xaf#8] && t.phase == Phase.hash1) = true := by decide +kernel

/-- Section 4.1, HASH1 of `ELEM_ITER_B`: `H_T` of WP; and `H_T` of `00 * 217` for `ELEM_ITER_A`. -/
theorem test_hash1 :
    (hash1With toyHash { inPhase Phase.hash1 5#32 with wp := toyHash [] }).d1 = toyHash (toyHash []).toList ∧
    (hash1With toyHash (inPhase Phase.hash1 2#32)).d1.toList =
      bytesOf 32 0x2553a26daac5afffd900e8e2c71e720ffebef82ea355868b51aa0d448070d9ca := by decide +kernel

/-- `H_T` of `00 * 32` (section 4). -/
theorem test_hash2 :
    (hash2With toyHash (inPhase Phase.hash2 5#32)).d2.toList =
      bytesOf 32 0xf090b0d14b52642204805cae6a148a066852a96bef3ae43c6d8f834c199576d3 := by decide +kernel

/-- I8: the window after `INSERT_NONCE_A`. -/
theorem test_respond_window :
    goesTo (exec .respond { inPhase Phase.respond 3#32 with wbuf := Vector.replicate 217 0x5a#8 }) (fun t =>
      t.regRead 7 == 217#32 && t.outRead 216 == 0x5a#8 && t.outRead 217 == 0#8 && t.status == 2#32) = true := by
  decide +kernel

theorem test_idle_takes_no_step : step State.reset = .next State.reset := rfl

/-! ### The requester's registers (section 2.4) -/

/-- I1. -/
theorem test_reset_reads : ∀ n : Fin 16, State.reset.regRead n = 0#32 := by decide

/-- I2: only the low byte is stored. -/
theorem test_header_push :
    let t := (State.reset.performWrite ⟨8, 0xAB#32⟩).performWrite ⟨8, 0x1CD#32⟩
    t.hlen = 2#32 ∧ t.hbuf.toList.take 3 = [0xab#8, 0xcd#8, 0#8] := by decide +kernel

/-- I6: a push past the end is counted, not stored. -/
theorem test_wide_push_past_the_end :
    let t := State.performWrite { State.reset with nlen := 39#32, nbuf := Vector.replicate 32 0x22#8 } ⟨9, 0x33#32⟩
    t.nlen = 40#32 ∧ t.nbuf.toList = rep 32 0x22#8 := by decide +kernel

/-- R46: the counter saturates. -/
theorem test_counter_saturates : countUp 0xFFFFFFFF#32 = 0xFFFFFFFF#32 ∧ countUp 217#32 = 218#32 := by decide

/-- P4: a write while the command runs is held. -/
theorem test_write_is_held :
    goesTo (step { inPhase Phase.mac 4#32 with turns := [writeTurn 2 0xAABBCCDD#32] }) (fun t =>
      t.nonce == 0#32 && t.held == [⟨2, 0xAABBCCDD#32⟩] && t.phase == Phase.mac) = true := by decide +kernel

/-- P4: and performed once the block is idle. -/
theorem test_held_write_is_performed :
    goesTo (step { State.reset with held := [⟨2, 0xAABBCCDD#32⟩, ⟨8, 0x55#32⟩] }) (fun t =>
      t.nonce == 0xAABBCCDD#32 && t.held == [⟨8, 0x55#32⟩]) = true := by decide +kernel

/-! ### Cases that meet the hypotheses of the statements -/

/-- A legal state in the middle of a round. -/
theorem control_mac : Control (inPhase Phase.mac 4#32) := by
  refine { i_le := by decide, j_le := by decide, toFlow := ?_ }
  constructor <;> decide

/-- A legal state before a CHECK that fails (E8). -/
theorem control_check : Control { inPhase Phase.check 7#32 with nlen := 31#32 } := by
  refine { i_le := by decide, j_le := by decide, toFlow := ?_ }
  constructor <;> decide

/-- A legal state at the end of an insertion. -/
theorem control_respond : Control (inPhase Phase.respond 7#32) := by
  refine { i_le := by decide, j_le := by decide, toFlow := ?_ }
  constructor <;> decide

/-- The idle state after E8, by its registers. -/
def failed : State :=
  { State.reset with valid := true, err := true, errcode := 1#2, expected := 32#32, actual := 31#32 }

theorem control_failed : Control failed := by
  refine { i_le := by decide, j_le := by decide, toFlow := ?_ }
  constructor <;> decide

/-- The idle state after E16, by its registers. -/
theorem control_illegal : Control { State.reset with valid := true, err := true, errcode := 2#2 } := by
  refine { i_le := by decide, j_le := by decide, toFlow := ?_ }
  constructor <;> decide

/-- The idle state after a success, by its registers. -/
def succeeded : State := { State.reset with valid := true, olen := 217#8, obuf := Vector.replicate 217 7#8 }

theorem control_succeeded : Control succeeded := by
  refine { i_le := by decide, j_le := by decide, toFlow := ?_ }
  constructor <;> decide

theorem tracks_respond : Tracks Config.hash (inPhase Phase.respond 7#32) := by
  constructor <;> decide

/-- The state before the first MAC of a `MATMUL_WORK_B` of `00 * 64`, whatever the hash is. -/
def firstMac : State := chainWith Config.hash (seedWith Config.hash (inPhase Phase.seed 4#32))

theorem control_firstMac : Control firstMac := by
  refine { i_le := by decide, j_le := by decide, toFlow := ?_ }
  constructor <;> decide

theorem tracks_firstMac : Tracks Config.hash firstMac := by
  constructor <;> first | decide | skip
  · intro _ _; rfl
  · intro _; rfl

/-- `EncodedInstructionDecodes`, `DecodableCodesAreTheEncodings`: a legal instruction, a legal and an illegal code. -/
theorem witness_encoding : Instr.mac.wellFormed = true ∧ decode (.phase 6#4) = .ok .mac ∧
    (Code.cmd 8#32).wellFormed = false := by decide

/-- `OpcodeMap` at both ends of the legal words, and on both sides of the two header formats. -/
theorem witness_opcode_map : illegalWord 1#32 = false ∧ illegalWord 3#32 = false ∧ illegalWord 4#32 = false ∧
    illegalWord 7#32 = false ∧ illegalWord 0#32 = true ∧ illegalWord 8#32 = true := by decide

/-- `StepRunsThePhase`: idle with no turn and no held write; busy with a held write and the sequencer's turn. -/
theorem witness_step_runs_the_phase :
    (State.reset.rst = false ∧ State.reset.held = [] ∧ decodePhase State.reset.phase = .ok .idle ∧
      State.reset.turns = []) ∧
    (let s := { inPhase Phase.mac 4#32 with held := [⟨2, 1#32⟩], turns := [.sequencer] }
     s.rst = false ∧ s.busy = true ∧ decodePhase s.phase = .ok .mac ∧ s.turns = .sequencer :: []) := by decide

/-- `StepRunsTheCommand`: the requester's write, in IDLE and held in a busy block; a held command in IDLE. -/
theorem witness_step_runs_the_command :
    decodeCmd 7#32 = .ok .insertNonceBWide ∧
    (let s := withTurn (writeTurn 0 7#32); s.rst = false ∧ s.held = [] ∧ s.turns = .access (.regWrite ⟨0, 7#32⟩) :: []) ∧
    (let s := { inPhase Phase.mac 4#32 with turns := [writeTurn 0 7#32] }; s.rst = false ∧ s.busy = true) ∧
    (let s := { State.reset with held := [⟨0, 7#32⟩] }
     s.rst = false ∧ s.busy = false ∧ s.turns.head? ≠ some .assertReset) := by decide

/-- `ReservedPhaseStops` at both ends, in both clauses. -/
theorem witness_reserved_phase :
    (let s := { State.reset with phase := 12#4 }; s.rst = false ∧ 12 ≤ s.phase.toNat ∧ s.turns = []) ∧
    (let s := { State.reset with phase := 15#4, turns := [.sequencer] }
     s.rst = false ∧ 12 ≤ s.phase.toNat ∧ s.turns = .sequencer :: []) := by decide

/-- `CommandComputesItsFunction`: inputs with each of the three kinds of response. -/
theorem witness_responses :
    command Config.hash (State.reset.inputs 8#32) = .illegalCmd ∧
    command Config.hash (State.reset.inputs 1#32) = .sizeMismatch 217#32 0#32 ∧
    command Config.hash ({ State.reset with hlen := 64#32 }.inputs 6#32) =
      .ok (insertNonceBNarrow (rep 64 0#8) 0#32) := ⟨by decide, by decide, by decide +kernel⟩

/-- `CommandIsAcceptedInIdle`, `FirstCommandWithoutHeaderFails`, `CommandComputesItsFunction`, `EveryCommandEnds`. -/
theorem witness_command_in_idle : encode .getWorkParA = .cmd 1#32 ∧ State.reset.phase = Phase.idle ∧
    State.reset.rst = false ∧ State.reset.turns = [] := by decide

/-- `CommandIsHeldWhileBusy`, `WritesAreHeldWhileBusy`: in the first and the last phase of a command. -/
theorem witness_busy :
    encode .elemIterB = .cmd 5#32 ∧ (inPhase Phase.check 1#32).phase ≠ Phase.idle ∧
    (let s := { inPhase Phase.respond 1#32 with turns := [writeTurn 0 5#32] }
     s.phase ≠ Phase.idle ∧ s.rst = false ∧ s.turns = .access (.regWrite ⟨0, 5#32⟩) :: []) := by decide

/-- `HeldWriteIsPerformedInIdle`. -/
theorem witness_held : let s := { State.reset with held := [⟨8, 0x55#32⟩], turns := [.sequencer] }
    s.phase = Phase.idle ∧ s.rst = false ∧ s.held = ⟨8, 0x55#32⟩ :: [] ∧ s.turns.head? ≠ some .assertReset := by decide

/-- `IllegalWordEndsInIllegalCmd` at the words beside the legal ones and at a reserved bit. -/
theorem witness_illegal_word :
    ¬ 1 ≤ (0x00000000#32).toNat ∧ ¬ (0x00000008#32).toNat ≤ 7 ∧ ¬ (0x80000001#32).toNat ≤ 7 ∧
    (let s := withTurn (writeTurn 0 8#32)
     s.phase = Phase.idle ∧ s.rst = false ∧ s.held = [] ∧ s.turns = [.access (.regWrite ⟨0, 8#32⟩)]) := by
  refine ⟨by simp, by simp, by simp, by decide⟩

/-- `CheckTestsInOrder`: every branch, at the lengths beside the right ones (E4, E8, E9, E13, E14, E16). -/
theorem witness_check_branches :
    (let s := { inPhase Phase.check 0x11#32 with hlen := 217#32 }; s.cmdr.toNat / 16 ≠ 0) ∧
    (inPhase Phase.check 0#32).cmdr.toNat % 16 = 0 ∧ 8 ≤ (inPhase Phase.check 8#32).cmdr.toNat % 16 ∧
    (let s := { inPhase Phase.check 3#32 with hlen := 218#32 }; s.hlen.toNat ≠ 217) ∧
    (let s := { inPhase Phase.check 7#32 with nlen := 33#32 }
     s.hlen.toNat = 64 ∧ s.cmdr.toNat % 16 = 7 ∧ s.nlen.toNat ≠ 32) ∧
    checkError (inPhase Phase.check 7#32).cmdr (inPhase Phase.check 7#32).hlen (inPhase Phase.check 7#32).nlen = none := by
  decide

/-- `Hash1HashesTheVariantsMessage`, `CompressHashesTheAccumulators`: each opcode the clauses name. -/
theorem witness_opcodes : (inPhase Phase.hash1 2#32).op = 2#4 ∧ (inPhase Phase.hash1 5#32).op = 5#4 ∧
    (inPhase Phase.hash1 1#32).op ≠ 2#4 ∧ (inPhase Phase.hash1 1#32).op ≠ 5#4 ∧
    (inPhase Phase.compress 1#32).op = 1#4 ∧ (inPhase Phase.compress 4#32).op = 4#4 := by decide

/-- `RespondPublishesTheResult` (the three lengths), `RespondAfterFailurePublishesNothing`. -/
theorem witness_respond :
    ((inPhase Phase.respond 1#32).err = false ∧ illegalWord (inPhase Phase.respond 1#32).cmdr = false) ∧
    ((inPhase Phase.respond 3#32).err = false ∧ illegalWord (inPhase Phase.respond 3#32).cmdr = false) ∧
    ((inPhase Phase.respond 7#32).err = false ∧ illegalWord (inPhase Phase.respond 7#32).cmdr = false) ∧
    { inPhase Phase.respond 1#32 with err := true }.err = true := by decide

/-- `CodecFunctionsChangeTheirBytesOnly`. -/
theorem witness_codec_lengths : (ramp 217).length = 217 ∧ (ramp 64).length = 64 ∧ (ramp 32).length = 32 := by
  simp [ramp]

/-- `MacAddsOneTerm`, `MacStopsOutsideItsIndexes`: inside the loops, at the end of a round, at the end of all, outside. -/
theorem witness_mac :
    (inPhase Phase.mac 4#32).i.toNat < 32 ∧ (inPhase Phase.mac 4#32).j.toNat < 31 ∧
    (let s := { inPhase Phase.mac 4#32 with i := 30#6, j := 31#6 }; s.i.toNat < 31 ∧ s.j.toNat = 31) ∧
    (let s := { inPhase Phase.mac 4#32 with i := 31#6, j := 31#6 }; s.i.toNat = 31 ∧ s.j.toNat = 31) ∧
    (let s := { inPhase Phase.mac 4#32 with i := 32#6 }; ¬ (s.i.toNat < 32 ∧ s.j.toNat < 32)) := by decide

/-- `RoundSumNeverWraps`, `SerialisedAccumulators`, `ColumnsInClosedForm`: the bounds at both ends. -/
theorem witness_bounds : (0 : Nat) ≤ 32 ∧ (32 : Nat) ≤ 32 ∧ (31 : Nat) < 32 ∧ (3 : Nat) < 4 := by decide

/-- `TermOrderIsInvisible`: two orders of two terms; and a MAC with another accumulator than the first beside it. -/
theorem witness_permutation : [(1#8, 2#8), (3#8, 4#8)].Perm [(3#8, 4#8), (1#8, 2#8)] ∧
    (∃ t, exec .mac firstMac = .next t) ∧ 31 ≠ firstMac.i.toNat := ⟨by decide, ⟨_, rfl⟩, by decide⟩

/-- `StatusValues`: legal idle states with each of the four values 0, 2, 14, 22. -/
theorem witness_status :
    (Control failed ∧ failed.busy = false ∧ (failed.regRead 1).toNat = 14) ∧
    (Control succeeded ∧ succeeded.busy = false ∧ (succeeded.regRead 1).toNat = 2) ∧
    (State.reset.busy = false ∧ (State.reset.regRead 1).toNat = 0) ∧
    (let s := { State.reset with valid := true, err := true, errcode := 2#2 }
     Control s ∧ s.busy = false ∧ (s.regRead 1).toNat = 22) :=
  ⟨⟨control_failed, by decide⟩, ⟨control_succeeded, by decide⟩, by decide, ⟨control_illegal, by decide⟩⟩

/-- `OutWindow`: the last byte of a result, the first past it, a running and a failed command. -/
theorem witness_window :
    216 < succeeded.olen.toNat ∧ succeeded.olen.toNat ≤ 217 ∧
    (Control (inPhase Phase.mac 4#32) ∧ (inPhase Phase.mac 4#32).busy = true) ∧
    (Control failed ∧ failed.err = true) :=
  ⟨by decide, by decide, ⟨control_mac, by decide⟩, ⟨control_failed, by decide⟩⟩

/-- `HeaderPush`, `WideNoncePush`: the last byte that is stored and the first that is not. -/
theorem witness_push :
    (let s := { withTurn (writeTurn 8 0xAB#32) with hlen := 216#32 }
     s.phase = Phase.idle ∧ s.rst = false ∧ s.held = [] ∧ s.turns = .access (.regWrite ⟨8, 0xAB#32⟩) :: [] ∧
       s.hlen.toNat < 217) ∧
    (let s := { withTurn (writeTurn 9 0xAB#32) with nlen := 32#32 }
     s.phase = Phase.idle ∧ s.rst = false ∧ s.held = [] ∧ s.turns = .access (.regWrite ⟨9, 0xAB#32⟩) :: [] ∧
       ¬ s.nlen.toNat < 32) := by decide

/-- `OtherRegisterWrites`: NONCE, in IDLE and held; the read-only and reserved registers at the ends of their ranges. -/
theorem witness_other_writes :
    (let s := { inPhase Phase.respond 1#32 with turns := [writeTurn 2 5#32] }
     s.phase ≠ Phase.idle ∧ s.rst = false ∧ s.turns = .access (.regWrite ⟨2, 5#32⟩) :: []) ∧
    (let s := withTurn (writeTurn 2 5#32)
     s.phase = Phase.idle ∧ s.rst = false ∧ s.held = [] ∧ s.turns = .access (.regWrite ⟨2, 5#32⟩) :: []) ∧
    (∀ n ∈ ([1, 3, 7, 10, 15] : List (Fin 16)), n = 1 ∨ (3 ≤ n ∧ n ≤ 7) ∨ 10 ≤ n) := by decide

/-- `ReadsChangeNothing`: a register read of a busy block, a window read of an idle one. -/
theorem witness_reads :
    (let s := { inPhase Phase.mac 4#32 with turns := [.access (.regRead 1)] }
     (Turn.access (.regRead 1)).isRead = true ∧ s.rst = false ∧ s.busy = true ∧ s.turns = .access (.regRead 1) :: []) ∧
    (let s := withTurn (.access (.outRead 255))
     (Turn.access (.outRead 255)).isRead = true ∧ s.rst = false ∧ s.held = [] ∧ s.turns = .access (.outRead 255) :: []) := by
  decide

/-- `InternalRegistersAreUnreadable`: two states that differ in WP and in OBUF past OLEN. -/
theorem witness_same_visible : sameVisible State.reset
    { State.reset with wp := Vector.replicate 32 1#8, obuf := Vector.replicate 217 1#8 } := by
  refine ⟨rfl, rfl, rfl, rfl, rfl, rfl, rfl, rfl, rfl, rfl, ?_⟩
  intro k _ h
  exact absurd h (Nat.not_lt_zero k)

/-- `ResetAbandonsEverything`, `AssertedResetBlocksEverything`: in the middle of a command; released and not. -/
theorem witness_reset :
    (let s := { inPhase Phase.mac 4#32 with turns := [.assertReset] }; s.rst = false ∧ s.turns = .assertReset :: []) ∧
    (let s := { State.reset with rst := true, turns := [.releaseReset, .sequencer] }
     s.rst = true ∧ s.turns = .releaseReset :: [.sequencer]) ∧
    (let s := { State.reset with rst := true, turns := [writeTurn 0 1#32] }
     s.rst = true ∧ s.turns = writeTurn 0 1#32 :: []) := by decide

/-- `PhaseGraph`, `FlagWriters`, `InputsAreNeverWrittenBySequencer`: a MAC of a legal state. -/
theorem witness_phase_step :
    Control firstMac ∧ decodePhase firstMac.phase = .ok .mac ∧ encode .mac = .phase 6#4 ∧
      ∃ t, exec .mac firstMac = .next t :=
  ⟨control_firstMac, by decide, rfl, _, rfl⟩

/-- `OnlyTheseStepsClear`: acceptance clears VALID, RESPOND the two counters. -/
theorem witness_clears :
    (let s := { succeeded with turns := [writeTurn 0 1#32] }
     s.valid = true ∧ goesTo (step s) (fun t => !t.valid) = true) ∧
    (Control (inPhase Phase.respond 7#32) ∧ (inPhase Phase.respond 7#32).hlen ≠ 0#32 ∧
      (inPhase Phase.respond 7#32).nlen ≠ 0#32 ∧
      goesTo (step (inPhase Phase.respond 7#32)) (fun t => t.hlen == 0#32 && t.nlen == 0#32) = true) :=
  ⟨by decide, control_respond, by decide⟩

/-- `FailedCommandComputesNothing` (E8). -/
theorem witness_failed_command :
    let s := { inPhase Phase.check 7#32 with nlen := 31#32 }
    Control s ∧ s.phase = Phase.check ∧ s.rst = false ∧ s.turns = [] ∧
      checkError s.cmdr s.hlen s.nlen = some (.sizeMismatch 32#32 31#32) :=
  ⟨control_check, by decide⟩

/-- `EveryStepKeepsControl`, `NoStepStops`, `EveryStepKeepsTracks`: a legal state in a round, and its step. -/
theorem witness_invariants :
    Control firstMac ∧ Tracks Config.hash firstMac ∧ ∃ t, step firstMac = .next t :=
  ⟨control_firstMac, tracks_firstMac, _, rfl⟩

/-- `RespondAnswersTheCommandFunction`. -/
theorem witness_respond_answers : Control (inPhase Phase.respond 7#32) ∧
    Tracks Config.hash (inPhase Phase.respond 7#32) ∧ (inPhase Phase.respond 7#32).phase = Phase.respond :=
  ⟨control_respond, tracks_respond, rfl⟩

/-- `CommandsArePure`: after a reset and after a success, with the same inputs. -/
theorem witness_pure :
    succeeded ≠ State.reset ∧ State.reset.phase = Phase.idle ∧ State.reset.rst = false ∧ State.reset.turns = [] ∧
    succeeded.phase = Phase.idle ∧ succeeded.rst = false ∧ succeeded.turns = [] ∧
    State.reset.inputs 4#32 = succeeded.inputs 4#32 := by decide +kernel

/-- `ElementaryIterationFromWorkPar`: the premises hold of headers of the right lengths, for any hash. -/
theorem witness_work_par (hash : Hash) :
    command hash { w := 4#32, hl := 64#32, hb := ramp 64, n := 0#32, nl := 0#32, nb := [] } =
      .ok (workPar hash (ramp 64)).toList ∧
    command hash { w := 1#32, hl := 217#32, hb := ramp 217, n := 0#32, nl := 0#32, nb := [] } =
      .ok (workPar hash (ramp 217)).toList := ⟨rfl, rfl⟩

end Sys2Proof.Tests
end

section
/-! PROOF. The requester's registers and the OUT window (10_state.md R43, R44, R47, R48): what a register read, an OUT
read and a register write do, then the statements O33, O34 and O37. -/

namespace Sys2Proof.Machine

/-! ### STATUS -/

@[simp] theorem flag_toNat (b : Bool) : (flag b).toNat = b.toNat := by
  cases b <;> rfl

@[simp] theorem regRead_status (s : State) : s.regRead 1 = s.status := rfl

/-- The fields of STATUS do not overlap, so the word sum is the sum of numbers (R43). -/
theorem status_toNat (s : State) :
    s.status.toNat = s.busy.toNat + 2 * s.valid.toNat + 4 * s.err.toNat + 8 * s.errcode.toNat := by
  have hbusy := s.busy.toNat_le
  have hvalid := s.valid.toNat_le
  have herr := s.err.toNat_le
  have hcode := s.errcode.isLt
  simp only [State.status, BitVec.toNat_add, BitVec.toNat_mul, BitVec.toNat_setWidth, BitVec.toNat_ofNat, flag_toNat]
  omega

theorem status_toNat_lt (s : State) : s.status.toNat < 32 := by
  have hbusy := s.busy.toNat_le
  have hvalid := s.valid.toNat_le
  have herr := s.err.toNat_le
  have hcode := s.errcode.isLt
  rw [status_toNat]
  omega

/-- With ERR set, ERRCODE names one of the two errors (R32, R99). -/
theorem Flow.errcode_of_err {s : State} (h : Flow s) (he : s.err = true) : s.errcode = 1#2 ∨ s.errcode = 2#2 := by
  have h0 : s.errcode ≠ 0#2 := fun hc => by simp [h.errcode_iff.2 hc] at he
  have h3 := h.errcode_ne
  bv_omega

/-- The values of STATUS in IDLE: nothing completed, a success, a size mismatch, an illegal word (R43). -/
theorem Flow.status_idle {s : State} (h : Flow s) (hb : s.busy = false) : s.status.toNat ∈ [0, 2, 14, 22] := by
  rw [status_toNat, hb]
  cases herr : s.err with
  | false =>
    rw [h.errcode_iff.1 herr]
    cases s.valid <;> decide
  | true =>
    have hvalid : s.valid = true := by
      by_contra hv
      simp [h.idle_err ((busy_eq_false s).1 hb) (by simpa using hv)] at herr
    rw [hvalid]
    rcases h.errcode_of_err herr with hc | hc <;> rw [hc] <;> decide

/-! ### The OUT window -/

theorem outRead_of_lt {s : State} {k : Fin 256} (hk : k.val < 217) (h : k.val < s.olen.toNat) :
    s.outRead k = s.obuf[k.val] := by
  rw [State.outRead, if_pos h, toList_getD _ _ hk]

theorem outRead_of_le {s : State} {k : Fin 256} (h : s.olen.toNat ≤ k.val) : s.outRead k = 0#8 :=
  if_neg (Nat.not_lt.2 h)

/-- A result length stands only in IDLE after a success (R32, R35). -/
theorem Flow.olen_eq_zero {s : State} (h : Flow s) (hs : s.busy = true ∨ s.err = true ∨ s.valid = false) :
    s.olen = 0#8 := by
  rcases hs with hb | he | hv
  · exact (h.busy_results ((busy_iff s).1 hb)).2
  · exact h.err_olen he
  · exact h.invalid_olen hv

/-! ### Register accesses without effect -/

/-- Write-only and reserved registers read 0 (R48). -/
theorem regRead_eq_zero (s : State) {n : Fin 16} (h : n = 0 ∨ 8 ≤ n) : s.regRead n = 0#32 := by
  have hn : n.val = 0 ∨ 8 ≤ n.val := h.imp (congrArg Fin.val) id
  unfold State.regRead
  split
  case h_8 => rfl
  all_goals omega

/-- A write to a read-only or reserved register changes nothing (R43, R45, R48). -/
theorem performWrite_eq_self (s : State) {a : RegWrite} (h : a.n = 1 ∨ (3 ≤ a.n ∧ a.n ≤ 7) ∨ 10 ≤ a.n) :
    s.performWrite a = s := by
  have hn : a.n.val = 1 ∨ (3 ≤ a.n.val ∧ a.n.val ≤ 7) ∨ 10 ≤ a.n.val := h.imp (congrArg Fin.val) id
  unfold State.performWrite
  split
  case h_5 => rfl
  all_goals omega

/-- The write to NONCE (R44). -/
theorem performWrite_nonce (s : State) {a : RegWrite} (h : a.n = 2) : s.performWrite a = { s with nonce := a.v } := by
  simp [State.performWrite, h]

/-! ### A register write as a step -/

theorem step_regWrite {s : State} {a : RegWrite} {ts : List Turn} (hr : s.rst = false)
    (hb : s.busy = true ∨ s.held = []) (ht : s.turns = .access (.regWrite a) :: ts) :
    step s = .next ((s.withTurns ts).regWrite a) :=
  (step_turn hr hb ht).trans (writeStep_eq a _)

/-- In IDLE with no write held, the write is performed (R41). -/
theorem step_regWrite_idle {s : State} {a : RegWrite} {ts : List Turn} (hr : s.rst = false)
    (hi : s.phase = Phase.idle) (hh : s.held = []) (ht : s.turns = .access (.regWrite a) :: ts) :
    step s = .next ((s.withTurns ts).performWrite a) := by
  rw [step_regWrite hr (.inr hh) ht, regWrite_idle (s := s.withTurns ts) a hi]

/-- While a command runs, the write is held behind those held already (R41). -/
theorem step_regWrite_busy {s : State} {a : RegWrite} {ts : List Turn} (hr : s.rst = false)
    (hp : s.phase ≠ Phase.idle) (ht : s.turns = .access (.regWrite a) :: ts) :
    step s = .next ((s.withTurns ts).withHeld (s.held ++ [a])) := by
  rw [step_regWrite hr (.inl ((busy_iff s).2 hp)) ht, regWrite_busy (s := s.withTurns ts) a hp]
  rfl

/-! ### The statements -/

/-- Settles O33: the fields of STATUS as a number, and the flow of control for its values in IDLE. -/
theorem statusValues : Obligations.StatusValues := fun s =>
  ⟨status_toNat s, busy_iff s, status_toNat_lt s, fun _ => performWrite_eq_self s (.inl rfl),
    fun hc hb => hc.toFlow.status_idle hb⟩

/-- Settles O34: both sides of OLEN, and OLEN is 0 except in IDLE after a success. -/
theorem outWindow : Obligations.OutWindow := fun _ _ =>
  ⟨outRead_of_lt, outRead_of_le, rfl, fun hc hs => outRead_of_le (by simp [hc.toFlow.olen_eq_zero hs])⟩

/-- Settles O37: the reads by the register number, the writes by the phase and the register number. -/
theorem otherRegisterWrites : Obligations.OtherRegisterWrites := by
  refine ⟨fun s _ => regRead_eq_zero s, fun s a ts hr ht => ⟨?idle, ?busy, fun u => performWrite_eq_self u, ?nonce⟩⟩
  case idle =>
    intro hi hh hn
    rw [step_regWrite_idle hr hi hh ht, performWrite_eq_self _ hn, State.withTurns]
  case busy =>
    intro hp
    rw [step_regWrite_busy hr hp ht, State.withHeld, State.withTurns]
  case nonce =>
    intro hi hh hn
    rw [step_regWrite_idle hr hi hh ht, performWrite_nonce _ hn, State.withTurns]

end Sys2Proof.Machine
end

section
/-! PROOF. SER (20_memory.md R63): the two laws of the serialised accumulators, its length and each of its bytes, put
together. -/

namespace Sys2Proof.Machine

/-- Settles O28: the length is 32 words of four bytes, and a byte of SER is a byte of the `be32` of its accumulator. -/
theorem serialisedAccumulators : Obligations.SerialisedAccumulators := fun acc =>
  ⟨serialise_length acc, fun k hk b hb => serialise_getD acc k b hk hb⟩

end Sys2Proof.Machine
end

section
/-! PROOF. The opcode map (30_encoding.md R92): the variant and the header length of a legal word, read off the word
itself, joined to the decoder's and the legality test's own laws. -/

namespace Sys2Proof.Machine

/-- VARIANT as a test on numbers (R34). -/
theorem variantOf_eq_a_iff (op : BitVec 4) : variantOf op = .a ↔ op.toNat = 1 ∨ op.toNat = 2 ∨ op.toNat = 3 := by
  rw [← op_eq_iff op 1 (by decide), ← op_eq_iff op 2 (by decide), ← op_eq_iff op 3 (by decide), variantOf]
  split <;> simp [*]

/-- The opcodes of Variant A are the legal words up to 3 (R92). -/
theorem opField_variant_a_iff {w : Word} (h : illegalWord w = false) :
    ((opField w).toNat = 1 ∨ (opField w).toNat = 2 ∨ (opField w).toNat = 3) ↔ w.toNat ≤ 3 := by
  have hpos := ((illegalWord_eq_false w).1 h).1
  rw [opField_of_legal w h]
  omega

theorem variantOf_of_legal {w : Word} (h : illegalWord w = false) : variantOf (opField w) = .a ↔ w.toNat ≤ 3 :=
  (variantOf_eq_a_iff _).trans (opField_variant_a_iff h)

theorem headerLen_of_legal {w : Word} (h : illegalWord w = false) :
    headerLen (opField w) = if w.toNat ≤ 3 then 217 else 64 := by
  simp only [headerLen_eq, opField_variant_a_iff h]

/-- Settles O3: the decoder's inversion, the legality test as a range, and the two header formats of a legal word. -/
theorem opcodeMap : Obligations.OpcodeMap := fun w =>
  ⟨decodeCmd_ok_iff w, illegalWord_eq_false w, fun h => ⟨variantOf_of_legal h, headerLen_of_legal h⟩⟩

end Sys2Proof.Machine
end

section
/-! PROOF. The sequencer's front end (43_sequencer.md R200, R201): what acceptance of a command word does, which error
each test of CHECK gives and where CHECK ends, then the statements O8 and O14. -/

namespace Sys2Proof.Machine

/-! ### Acceptance -/

/-- The write to CMD (R42). -/
@[simp] theorem performWrite_cmd (s : State) (w : Word) : s.performWrite ⟨0, w⟩ = s.accept w := rfl

theorem regWrite_cmd_idle {s : State} (w : Word) (h : s.phase = Phase.idle) : s.regWrite ⟨0, w⟩ = s.accept w := by
  rw [regWrite_idle _ h, performWrite_cmd]

theorem accept_phase_ne_idle (s : State) (w : Word) : (s.accept w).phase ≠ Phase.idle := by
  simp

/-! ### The tests of CHECK -/

/-- The first test as a test on numbers, in the form R201 writes it. -/
theorem illegalWord_iff (w : Word) :
    illegalWord w = true ↔ w.toNat / 16 ≠ 0 ∨ w.toNat % 16 = 0 ∨ 8 ≤ w.toNat % 16 := by
  rw [← Bool.not_eq_false, illegalWord_eq_false]
  omega

theorem validateLength_of_eq {len : Word} {n : Nat} (h : len.toNat = n) : validateLength len n = none := if_pos h

theorem validateLength_of_ne {len : Word} {n : Nat} (h : len.toNat ≠ n) :
    validateLength len n = some (.sizeMismatch (BitVec.ofNat 32 n) len) := if_neg h

theorem checkError_of_illegal {w : Word} (hlen nlen : Word) (h : illegalWord w = true) :
    checkError w hlen nlen = some .illegalCmd := if_pos h

theorem checkError_of_headerLen_ne {w hlen : Word} (nlen : Word) (hw : illegalWord w = false)
    (h : hlen.toNat ≠ headerLen (opField w)) :
    checkError w hlen nlen = some (.sizeMismatch (BitVec.ofNat 32 (headerLen (opField w))) hlen) := by
  simp [checkError, hw, validateLength_of_ne h]

theorem checkError_of_wideLen_ne {w hlen nlen : Word} (hw : illegalWord w = false)
    (hh : hlen.toNat = headerLen (opField w)) (hop : opField w = 7#4) (h : nlen.toNat ≠ 32) :
    checkError w hlen nlen = some (.sizeMismatch 32#32 nlen) := by
  rw [hop] at hh
  simp [checkError, hw, hop, validateLength_of_eq hh, validateLength_of_ne h]

theorem exec_check_of_error {s : State} {e : CmdError} (h : checkError s.cmdr s.hlen s.nlen = some e) :
    exec .check s = .next (s.raise e) := by
  simp only [exec, execCheck, h]

theorem exec_check_of_passed {s : State} (h : checkError s.cmdr s.hlen s.nlen = none) :
    exec .check s = .next (s.goto Phase.copy) := by
  simp only [exec, execCheck, h]

/-! ### The statements -/

/-- Settles O8: the next state is `accept`, which is busy, so that it holds every further write. -/
theorem commandIsAcceptedInIdle : Obligations.CommandIsAcceptedInIdle := by
  intro w s hi
  have haccept := regWrite_cmd_idle w hi
  have hbusy := accept_phase_ne_idle s w
  refine ⟨s.accept w, haccept, fun i h => haccept ▸ exec_command s h, ?_⟩
  exact ⟨rfl, rfl, rfl, rfl, rfl, rfl, rfl, rfl, rfl, rfl, fun a => regWrite_busy a hbusy, rfl⟩

/-- Settles O14: the tests one after the other, each with the error it raises; the last case passes them all. -/
theorem checkTestsInOrder : Obligations.CheckTestsInOrder := by
  intro s raised code len
  have hL : headerLen (opField s.cmdr) = len := by rw [headerLen_eq, opField_toNat]
  have hop : opField s.cmdr = 7#4 ↔ code = 7 := by rw [op_eq_iff _ 7 (by decide), opField_toNat]
  have hill := illegalWord_iff s.cmdr
  have hsize (x a : Word) : raised (s.raise (.sizeMismatch x a)) 1#2 x a := ⟨rfl, rfl, rfl, rfl, rfl, rfl⟩
  split_ifs with hword hheader hwide
  · exact ⟨_, exec_check_of_error (checkError_of_illegal _ _ (hill.2 hword)), rfl, rfl, rfl, rfl, rfl, rfl⟩
  all_goals have hlegal : illegalWord s.cmdr = false := Bool.eq_false_iff.2 (mt hill.1 hword)
  · exact ⟨_, exec_check_of_error (checkError_of_headerLen_ne s.nlen hlegal (hL ▸ hheader)), hL ▸ hsize _ _⟩
  all_goals have hlen : s.hlen.toNat = headerLen (opField s.cmdr) := (not_not.1 hheader).trans hL.symm
  · exact ⟨_, exec_check_of_error (checkError_of_wideLen_ne hlegal hlen (hop.2 hwide.1) hwide.2), hsize _ _⟩
  · have hnlen (h7 : opField s.cmdr = 7#4) : s.nlen.toNat = 32 := by_contra fun h => hwide ⟨hop.1 h7, h⟩
    exact ⟨_, exec_check_of_passed ((checkError_eq_none _ _ _).2 ⟨hlegal, hlen, hnlen⟩), rfl, rfl⟩

end Sys2Proof.Machine
end

section
/-! PROOF. The frame of a micro-operation (10_state.md R35, 42_header_codec.md R181): what none of them writes, what
CHECK alone and RESPOND alone write, then the statements O45 and O46. -/

namespace Sys2Proof.Machine

/-- `t` has the requester's registers but the two counters, the held writes and the surroundings of `s`. -/
structure SameRequest (s t : State) : Prop where
  hbuf : t.hbuf = s.hbuf
  nbuf : t.nbuf = s.nbuf
  nonce : t.nonce = s.nonce
  cmdr : t.cmdr = s.cmdr
  held : t.held = s.held
  turns : t.turns = s.turns
  observed : t.observed = s.observed
  rst : t.rst = s.rst

/-- `t` has the counters HLEN and NLEN of `s`, which RESPOND alone clears. -/
structure SameCounts (s t : State) : Prop where
  hlen : t.hlen = s.hlen
  nlen : t.nlen = s.nlen

/-- `t` has the error registers of `s`, which CHECK alone writes. -/
structure SameErrors (s t : State) : Prop where
  err : t.err = s.err
  errcode : t.errcode = s.errcode
  expected : t.expected = s.expected
  actual : t.actual = s.actual

/-- `t` has the result registers of `s` that RESPOND alone writes. -/
structure SameOutput (s t : State) : Prop where
  valid : t.valid = s.valid
  olen : t.olen = s.olen
  obuf : t.obuf = s.obuf

/-- `t` differs from `s` in PHASE and in the registers of the engine and the codec only. -/
structure Quiet (s t : State) : Prop extends SameRequest s t, SameCounts s t, SameErrors s t, SameOutput s t

variable {s t : State} {i : Instr} {p : BitVec 4}

/-- A micro-operation other than CHECK and RESPOND. -/
theorem exec_quiet (hi : encode i = .phase p) (hc : i ≠ .check) (hr : i ≠ .respond) (h : exec i s = .next t) :
    Quiet s t := by
  cases i
  case getWorkParA | elemIterA | insertNonceA | matmulWorkB | elemIterB | insertNonceBNarrow | insertNonceBWide =>
    cases hi
  case check => exact absurd rfl hc
  case respond => exact absurd rfl hr
  case mac =>
    obtain ⟨_, _, rfl⟩ := execMac_cases h
    constructor <;> constructor <;> simp
  all_goals cases h; constructor <;> constructor <;> rfl

theorem exec_check_frame (h : exec .check s = .next t) : SameRequest s t ∧ SameCounts s t ∧ SameOutput s t := by
  rcases execCheck_cases h with ⟨e, -, rfl⟩ | ⟨-, rfl⟩
  · cases e <;> refine ⟨?_, ?_, ?_⟩ <;> constructor <;> rfl
  · refine ⟨?_, ?_, ?_⟩ <;> constructor <;> rfl

theorem exec_respond_frame (h : exec .respond s = .next t) : SameRequest s t ∧ SameErrors s t := by
  rcases execRespond_cases h with ⟨-, rfl⟩ | ⟨-, b, -, rfl⟩ | ⟨-, -, rfl⟩ <;> constructor <;> constructor <;> rfl

/-- RESPOND sets VALID, and writes OLEN only after a success (R212). -/
theorem exec_respond_output (h : exec .respond s = .next t) :
    t.valid = true ∧ (s.err = true → t.olen = s.olen) := by
  rcases execRespond_cases h with ⟨-, rfl⟩ | ⟨he, b, -, rfl⟩ | ⟨-, -, rfl⟩
  · exact ⟨rfl, fun _ => rfl⟩
  · exact ⟨rfl, fun he' => by simp [he] at he'⟩
  · exact ⟨rfl, fun _ => rfl⟩

theorem exec_phase_sameRequest (hi : encode i = .phase p) (h : exec i s = .next t) : SameRequest s t := by
  by_cases hc : i = .check
  · exact (exec_check_frame (hc ▸ h)).1
  by_cases hr : i = .respond
  · exact (exec_respond_frame (hr ▸ h)).1
  exact (exec_quiet hi hc hr h).toSameRequest

theorem exec_phase_sameErrors (hi : encode i = .phase p) (hc : i ≠ .check) (h : exec i s = .next t) :
    SameErrors s t := by
  by_cases hr : i = .respond
  · exact (exec_respond_frame (hr ▸ h)).2
  exact (exec_quiet hi hc hr h).toSameErrors

theorem exec_phase_sameCounts_sameOutput (hi : encode i = .phase p) (hr : i ≠ .respond) (h : exec i s = .next t) :
    SameCounts s t ∧ SameOutput s t := by
  by_cases hc : i = .check
  · exact (exec_check_frame (hc ▸ h)).2
  have q := exec_quiet hi hc hr h
  exact ⟨q.toSameCounts, q.toSameOutput⟩

/-- Settles O46: the frame of the requester's side, and that of the counters. -/
theorem inputsAreNeverWrittenBySequencer : Obligations.InputsAreNeverWrittenBySequencer := by
  intro s t i p hi h
  obtain ⟨hbuf, nbuf, nonce, cmdr, held, turns, observed, rst⟩ := exec_phase_sameRequest hi h
  refine ⟨hbuf, nbuf, nonce, cmdr, held, turns, observed, rst, fun hr => ?_⟩
  obtain ⟨⟨hlen, nlen⟩, -⟩ := exec_phase_sameCounts_sameOutput hi hr h
  exact ⟨hlen, nlen⟩

/-- Settles O45: acceptance clears the six by definition; the frames of CHECK's and of RESPOND's registers. -/
theorem flagWriters : Obligations.FlagWriters := by
  refine ⟨fun s w => ⟨rfl, rfl, rfl, rfl, rfl, rfl⟩, fun s t i p hi h => ⟨?errors, ?output, ?respond⟩, fun s n => rfl⟩
  case errors =>
    intro hc
    obtain ⟨err, errcode, expected, actual⟩ := exec_phase_sameErrors hi hc h
    exact ⟨err, errcode, expected, actual⟩
  case output =>
    intro hr
    obtain ⟨-, valid, olen, obuf⟩ := exec_phase_sameCounts_sameOutput hi hr h
    exact ⟨valid, olen, obuf⟩
  case respond =>
    rintro rfl
    exact exec_respond_output h

end Sys2Proof.Machine
end

section
/-! PROOF. PHASE and the sequencer's step (30_encoding.md R100, 43_sequencer.md R202): which PHASE values decode, where
each micro-operation goes, that none of them stops in a legal state, then the statements O5, O7, O13, O26 and O44. -/

namespace Sys2Proof.Machine

theorem decodePhase_error_iff (p : BitVec 4) (e : DecodeError) :
    decodePhase p = .error e ↔ e = .reservedPhase ∧ 12 ≤ p.toNat := by
  revert p
  cases e <;> decide

theorem decodePhase_ok_of_le {p : BitVec 4} (h : p.toNat ≤ 11) : ∃ i, decodePhase p = .ok i := by
  cases hd : decodePhase p with
  | ok i => exact ⟨i, rfl⟩
  | error e =>
    have := ((decodePhase_error_iff p e).1 hd).2
    omega

theorem sequencerStep_of_reserved {s : State} (h : 12 ≤ s.phase.toNat) : sequencerStep s = .fault .reservedPhase := by
  have hd : decodePhase s.phase = .error .reservedPhase := (decodePhase_error_iff _ _).2 ⟨rfl, h⟩
  simp [sequencerStep, hd]

theorem busy_of_one_le {s : State} (h : 1 ≤ s.phase.toNat) : s.busy = true := by
  rw [busy_iff]
  bv_omega

/-! ### Where a micro-operation goes -/

theorem macAdvance_phase (s : State) : (macAdvance s).phase =
    if s.j.toNat < 31 then Phase.mac else if s.i.toNat < 31 then Phase.chain else Phase.compress := by
  unfold macAdvance
  split_ifs <;> rfl

theorem isInsertion_eq_true (op : BitVec 4) : isInsertion op = true ↔ op = 3#4 ∨ op = 6#4 ∨ op = 7#4 := by
  simp [isInsertion, or_assoc]

/-- The opcodes that run the engine (R202). -/
theorem op_engine_cases {s : State} (hc : s.checked) (hi : isInsertion s.op = false) :
    s.op = 1#4 ∨ s.op = 2#4 ∨ s.op = 4#4 ∨ s.op = 5#4 := by
  rcases op_cases hc with h | h | h | h | h | h | h <;> simp [h, isInsertion] at hi ⊢

/-- A state in one of the phases COPY to HASH2. -/
theorem working_of_phase {s : State} {p : BitVec 4} (h : s.phase = p) (hp : 2 ≤ p.toNat ∧ p.toNat ≤ 10) : s.working := by
  rwa [State.working, h]

theorem Flow.op_compress {s : State} (h : Flow s) (hp : s.phase = Phase.compress) :
    s.op = 1#4 ∨ s.op = 2#4 ∨ s.op = 4#4 ∨ s.op = 5#4 :=
  op_engine_cases (h.working_checked (working_of_phase hp (by decide)))
    (h.engine_op (by simp [hp]) (by simp [hp]))

/-- The target of COMPRESS for the opcodes that reach it (R144). -/
theorem compressTarget_eq {s : State} (h : s.op = 1#4 ∨ s.op = 2#4 ∨ s.op = 4#4 ∨ s.op = 5#4) : compressTarget s =
    if s.op = 1#4 ∨ s.op = 4#4 then Phase.respond else if s.op = 2#4 then Phase.splice else Phase.hash1 := by
  rcases h with h | h | h | h <;> simp [compressTarget, h]

theorem exec_nextPhase {s t : State} {i : Instr} (hf : Flow s) (hd : decodePhase s.phase = .ok i)
    (h : exec i s = .next t) : t.phase = nextPhase s i := by
  have hp := (decodePhase_ok_iff _ _).1 hd
  cases i
  case getWorkParA | elemIterA | insertNonceA | matmulWorkB | elemIterB | insertNonceBNarrow | insertNonceBWide =>
    cases hp
  case idle =>
    cases h
    exact (Code.phase.inj hp).symm
  case check =>
    rcases execCheck_cases h with ⟨e, he, rfl⟩ | ⟨he, rfl⟩
    · cases e <;> simp [nextPhase, he]
    · simp [nextPhase, he]
  case copy =>
    cases h
    simp [nextPhase, isInsertion_eq_true]
  case mac =>
    obtain ⟨_, _, rfl⟩ := execMac_cases h
    rw [macAdvance_phase]
    rfl
  case compress =>
    cases h
    exact compressTarget_eq (hf.op_compress (Code.phase.inj hp).symm)
  case respond => rcases execRespond_cases h with ⟨-, rfl⟩ | ⟨-, b, -, rfl⟩ | ⟨-, -, rfl⟩ <;> rfl
  all_goals cases h; rfl

/-- Where MAC goes, with the counters it leaves (R143). -/
theorem exec_mac_position {s t : State} (h : exec .mac s = .next t) :
    (s.j.toNat < 31 ∧ t.j.toNat = s.j.toNat + 1 ∧ t.i = s.i ∧ t.phase = Phase.mac) ∨
    (s.j.toNat = 31 ∧ s.i.toNat < 31 ∧ t.j = 32#6 ∧ t.i.toNat = s.i.toNat + 1 ∧ t.phase = Phase.chain) ∨
    (s.j.toNat = 31 ∧ s.i.toNat = 31 ∧ t.j = 32#6 ∧ t.i = 32#6 ∧ t.phase = Phase.compress) := by
  obtain ⟨hi, hj, rfl⟩ := execMac_cases h
  generalize hu : ({ s with acc := macAcc s hi hj } : State) = u
  obtain ⟨hui, huj⟩ : u.i = s.i ∧ u.j = s.j := by subst hu; exact ⟨rfl, rfl⟩
  rw [← hui] at hi ⊢
  rw [← huj] at hj ⊢
  by_cases hj' : u.j.toNat < 31
  · rw [macAdvance_lane hj']
    exact .inl ⟨hj', by simp; omega, rfl, rfl⟩
  by_cases hi' : u.i.toNat < 31
  · rw [macAdvance_round hj' hi']
    exact .inr (.inl ⟨by omega, hi', rfl, by simp; omega, rfl⟩)
  · rw [macAdvance_last hj' hi']
    exact .inr (.inr ⟨by omega, by omega, rfl, rfl, rfl⟩)

/-- MAC writes ACC, I, J and PHASE only (R143). -/
theorem exec_mac_frame {s t : State} (h : exec .mac s = .next t) :
    { t with acc := s.acc, i := s.i, j := s.j, phase := s.phase } = s := by
  obtain ⟨_, _, rfl⟩ := execMac_cases h
  unfold macAdvance
  split_ifs <;> rfl

theorem exec_mac_acc {s t : State} (h : exec .mac s = .next t) :
    ∃ (hi : s.i.toNat < 32) (hj : s.j.toNat < 32), t.acc = macAcc s hi hj := by
  obtain ⟨hi, hj, rfl⟩ := execMac_cases h
  exact ⟨hi, hj, macAdvance_acc _⟩

theorem macAcc_self (s : State) (hi : s.i.toNat < 32) (hj : s.j.toNat < 32) :
    (macAcc s hi hj)[s.i.toNat] = accumulate s.acc[s.i.toNat] s.row[s.j.toNat] s.col[s.j.toNat] := by
  simp [macAcc]

theorem macAcc_other (s : State) (hi : s.i.toNat < 32) (hj : s.j.toNat < 32) {k : Nat} (hk : k < 32)
    (hne : k ≠ s.i.toNat) : (macAcc s hi hj)[k] = s.acc[k] := by
  simp [macAcc, hne.symm]

/-! ### No micro-operation stops -/

theorem exec_mac_of_lt {s : State} (hi : s.i.toNat < 32) (hj : s.j.toNat < 32) :
    exec .mac s = .next (macAdvance { s with acc := macAcc s hi hj }) := by
  simp only [exec, execMac, dif_pos (And.intro hi hj)]

theorem exec_mac_of_not_lt {s : State} (h : ¬ (s.i.toNat < 32 ∧ s.j.toNat < 32)) :
    exec .mac s = .fault .indexOutOfRange := by
  simp only [exec, execMac, dif_neg h]

theorem exec_check_next (s : State) : ∃ t, exec .check s = .next t := by
  cases hc : checkError s.cmdr s.hlen s.nlen with
  | some e => exact ⟨_, exec_check_of_error hc⟩
  | none => exact ⟨_, exec_check_of_passed hc⟩

theorem exec_respond_of_err {s : State} (h : s.err = true) : exec .respond s = .next s.complete := by
  simp [exec, execRespond, h]

theorem exec_respond_of_result {s : State} {b : Bytes} (h : s.err = false) (hb : resultBytes s = some b) :
    exec .respond s = .next (s.publish b).complete := by
  simp [exec, execRespond, h, hb]

theorem exec_respond_of_none {s : State} (h : s.err = false) (hb : resultBytes s = none) :
    exec .respond s = .next s.complete := by
  simp [exec, execRespond, h, hb]

theorem exec_respond_next (s : State) : ∃ t, exec .respond s = .next t := by
  cases he : s.err with
  | true => exact ⟨_, exec_respond_of_err he⟩
  | false =>
    cases hb : resultBytes s with
    | some b => exact ⟨_, exec_respond_of_result he hb⟩
    | none => exact ⟨_, exec_respond_of_none he hb⟩

theorem Flow.sequencerStep_next {s : State} (hf : Flow s) : ∃ t, sequencerStep s = .next t := by
  obtain ⟨i, hd⟩ := decodePhase_ok_of_le hf.phase_legal
  have hp := (decodePhase_ok_iff _ _).1 hd
  rw [sequencerStep_of hd]
  cases i
  case check => exact exec_check_next s
  case mac =>
    obtain ⟨hi, hj⟩ := hf.mac_ij (Code.phase.inj hp).symm
    exact ⟨_, exec_mac_of_lt (by omega) (by omega)⟩
  case respond => exact exec_respond_next s
  all_goals exact ⟨_, rfl⟩

/-! ### The statements -/

/-- Settles O5: the step is the sequencer's, and that is the micro-operation PHASE decodes to. -/
theorem stepRunsThePhase : Obligations.StepRunsThePhase := by
  intro s i hr hb hd
  refine ⟨fun ht => (step_sequencer hr hb ht).trans (sequencerStep_of hd), fun ts ht => ?_⟩
  exact (step_turn hr hb ht).trans (sequencerStep_of (s := s.withTurns ts) hd)

/-- Settles O7: a reserved PHASE is busy, so the step is the sequencer's, and no PHASE value of 12 or more decodes. -/
theorem reservedPhaseStops : Obligations.ReservedPhaseStops := by
  intro s hr hp
  have hb : s.busy = true ∨ s.held = [] := .inl (busy_of_one_le (by omega))
  refine ⟨fun ht => (step_sequencer hr hb ht).trans (sequencerStep_of_reserved hp), fun ts ht => ?_⟩
  exact (step_turn hr hb ht).trans (sequencerStep_of_reserved (s := s.withTurns ts) hp)

/-- Settles O13: both by definition. -/
theorem idleChangesNothing : Obligations.IdleChangesNothing := ⟨rfl, fun _ => rfl⟩

/-- Settles O26: the two branches of MAC. -/
theorem macStopsOutsideItsIndexes : Obligations.MacStopsOutsideItsIndexes := by
  refine fun s => ⟨exec_mac_of_not_lt, fun h hij => ?_⟩
  rw [exec_mac_of_lt hij.1 hij.2] at h
  cases h

/-- Settles O44: the micro-operations one by one; COMPRESS needs the opcodes that reach it. -/
theorem phaseGraph : Obligations.PhaseGraph := fun _ _ _ hc hd h => exec_nextPhase hc.toFlow hd h

end Sys2Proof.Machine
end

section
/-! PROOF. The control invariant (10_state.md R29, R32, R35, 43_sequencer.md R202): the flow of control is kept by the
micro-operations, by acceptance, by the other accesses and by a reset, then the statements O49 and O50. -/

namespace Sys2Proof.Machine

variable {s t : State}

/-- The result registers stand together (R32): what the flow of control says of them in any phase. -/
structure Results (t : State) : Prop where
  errcode_iff : t.err = false ↔ t.errcode = 0#2
  errcode_ne : t.errcode ≠ 3#2
  pair_zero : t.errcode ≠ 1#2 → t.expected = 0#32 ∧ t.actual = 0#32
  olen_legal : t.olen = 0#8 ∨ t.olen = 32#8 ∨ t.olen = 64#8 ∨ t.olen = 217#8
  err_olen : t.err = true → t.olen = 0#8
  invalid_olen : t.valid = false → t.olen = 0#8

theorem Flow.results (h : Flow s) : Results s :=
  ⟨h.errcode_iff, h.errcode_ne, h.pair_zero, h.olen_legal, h.err_olen, h.invalid_olen⟩

theorem Results.congr (h : Results s) (he : SameErrors s t) (ho : SameOutput s t) : Results t := by
  constructor <;> simp only [he.err, he.errcode, he.expected, he.actual, ho.valid, ho.olen]
  · exact h.errcode_iff
  · exact h.errcode_ne
  · exact h.pair_zero
  · exact h.olen_legal
  · exact h.err_olen
  · exact h.invalid_olen

/-- PHASE past CHECK, with the opcode and the counters R202 and R143 ask for there. -/
structure Lands (t : State) : Prop where
  range : 2 ≤ t.phase.toNat ∧ t.phase.toNat ≤ 11
  chain_i : t.phase = Phase.chain → t.i.toNat ≤ 31
  mac_ij : t.phase = Phase.mac → t.i.toNat ≤ 31 ∧ t.j.toNat ≤ 31
  patch_op : t.phase = Phase.patch → isInsertion t.op = true
  engine_op : 4 ≤ t.phase.toNat → t.phase.toNat ≤ 7 → isInsertion t.op = false
  splice_op : t.phase = Phase.splice → t.op = 2#4
  hash_op : t.phase = Phase.hash1 ∨ t.phase = Phase.hash2 → t.op = 2#4 ∨ t.op = 5#4

theorem Lands.copy (h : t.phase = Phase.copy) : Lands t := by
  constructor <;> simp [h]

theorem Lands.patch (h : t.phase = Phase.patch) (ho : isInsertion t.op = true) : Lands t := by
  constructor <;> simp [h, ho]

theorem Lands.seed (h : t.phase = Phase.seed) (ho : isInsertion t.op = false) : Lands t := by
  constructor <;> simp [h, ho]

theorem Lands.chain (h : t.phase = Phase.chain) (ho : isInsertion t.op = false) (hi : t.i.toNat ≤ 31) : Lands t := by
  constructor <;> simp [h, ho, hi]

theorem Lands.mac (h : t.phase = Phase.mac) (ho : isInsertion t.op = false) (hi : t.i.toNat ≤ 31)
    (hj : t.j.toNat ≤ 31) : Lands t := by
  constructor <;> simp [h, ho, hi, hj]

theorem Lands.compress (h : t.phase = Phase.compress) (ho : isInsertion t.op = false) : Lands t := by
  constructor <;> simp [h, ho]

theorem Lands.splice (h : t.phase = Phase.splice) (ho : t.op = 2#4) : Lands t := by
  constructor <;> simp [h, ho]

theorem Lands.hash (h : t.phase = Phase.hash1 ∨ t.phase = Phase.hash2) (ho : t.op = 2#4 ∨ t.op = 5#4) : Lands t := by
  rcases h with h | h <;> constructor <;> simp [h, ho]

theorem Lands.respond (h : t.phase = Phase.respond) : Lands t := by
  constructor <;> simp [h]

theorem checked_congr (hcmdr : t.cmdr = s.cmdr) (hc : SameCounts s t) : t.checked ↔ s.checked := by
  simp only [State.checked, hcmdr, hc.hlen, hc.nlen]

/-- A busy block goes on past CHECK: the results stay cleared, the tests stay passed. -/
theorem Flow.of_lands (h : Flow s) (q : Quiet s t) (hb : s.phase ≠ Phase.idle) (he : s.err = false) (hc : s.checked)
    (l : Lands t) : Flow t := by
  have hidle : t.phase ≠ Phase.idle := fun h0 => by simpa [h0] using l.range.1
  have hres := h.results.congr q.toSameErrors q.toSameOutput
  have hc' : t.checked := (checked_congr q.cmdr q.toSameCounts).2 hc
  obtain ⟨hvalid, holen⟩ := h.busy_results hb
  exact
  { phase_legal := l.range.2, chain_i := l.chain_i, mac_ij := l.mac_ij, patch_op := l.patch_op,
    engine_op := l.engine_op, splice_op := l.splice_op, hash_op := l.hash_op
    working_checked := fun _ => hc'
    working_noerr := fun _ => q.err.trans he
    respond_checked := fun _ => iff_of_true (q.err.trans he) hc'
    busy_results := fun _ => ⟨q.valid.trans hvalid, q.olen.trans holen⟩
    errcode_iff := hres.errcode_iff, errcode_ne := hres.errcode_ne, pair_zero := hres.pair_zero
    olen_legal := hres.olen_legal, err_olen := hres.err_olen, invalid_olen := hres.invalid_olen
    idle_err := fun h0 => absurd h0 hidle
    rst_idle := fun hr => absurd (h.rst_idle (q.rst ▸ hr)).1 hb }

/-- The work phases, COPY to HASH2, land past CHECK (R202). -/
theorem Flow.exec_lands {i : Instr} (h : Flow s) (hw : s.working) (hd : decodePhase s.phase = .ok i)
    (hs : exec i s = .next t) : Lands t := by
  have hp := (decodePhase_ok_iff _ _).1 hd
  have hn := exec_nextPhase h hd hs
  have hop : t.op = s.op := op_congr (exec_phase_sameRequest hp hs).cmdr
  obtain ⟨h2, h10⟩ := hw
  have hengine (h4 : 4 ≤ s.phase.toNat) (h7 : s.phase.toNat ≤ 7) : isInsertion t.op = false :=
    hop ▸ h.engine_op h4 h7
  cases i <;> simp only [encode, Code.phase.injEq, reduceCtorEq] at hp <;> rw [← hp] at h2 h10 hengine
  case idle | check | respond => simp at h2 h10
  case copy =>
    cases hi : isInsertion s.op with
    | true => exact .patch (by simpa [nextPhase, ← isInsertion_eq_true, hi] using hn) (hop ▸ hi)
    | false => exact .seed (by simpa [nextPhase, ← isInsertion_eq_true, hi] using hn) (hop ▸ hi)
  case patch | hash2 => exact .respond hn
  case seed =>
    cases hs
    exact .chain hn (hengine (by decide) (by decide)) (by simp)
  case chain =>
    cases hs
    exact .mac hn (hengine (by decide) (by decide)) (h.chain_i hp.symm) (by simp)
  case mac =>
    obtain ⟨hi, hj⟩ := h.mac_ij hp.symm
    have ho := hengine (by decide) (by decide)
    rcases exec_mac_position hs with ⟨hj', hj1, hi1, hm⟩ | ⟨-, hi', -, hi1, hm⟩ | ⟨-, -, -, -, hm⟩
    · exact .mac hm ho (hi1 ▸ hi) (by omega)
    · exact .chain hm ho (by omega)
    · exact .compress hm ho
  case compress =>
    rcases h.op_compress hp.symm with h1 | h2 | h4 | h5
    · exact .respond (by simpa [nextPhase, h1] using hn)
    · exact .splice (by simpa [nextPhase, h2] using hn) (hop.trans h2)
    · exact .respond (by simpa [nextPhase, h4] using hn)
    · exact .hash (.inl (by simpa [nextPhase, h5] using hn)) (.inr (hop.trans h5))
  case splice => exact .hash (.inl hn) (.inl (hop.trans (h.splice_op hp.symm)))
  case hash1 => exact .hash (.inr hn) (hop ▸ h.hash_op (.inl hp.symm))

/-- The flow of control of an idle block is that of its result registers. -/
theorem Results.flow_of_idle (h : Results t) (hp : t.phase = Phase.idle) (hv : t.valid = false → t.err = false)
    (hr : t.rst = true → t.held = []) : Flow t := by
  constructor
  case errcode_iff => exact h.errcode_iff
  case errcode_ne => exact h.errcode_ne
  case pair_zero => exact h.pair_zero
  case olen_legal => exact h.olen_legal
  case err_olen => exact h.err_olen
  case invalid_olen => exact h.invalid_olen
  case idle_err => exact fun _ => hv
  case rst_idle => exact fun hr' => ⟨hp, hr hr'⟩
  all_goals simp [hp, State.working]

/-! ### CHECK and RESPOND -/

theorem Flow.rst_of_busy (h : Flow s) (hb : s.phase ≠ Phase.idle) : s.rst = false := by
  by_contra hr
  exact hb (h.rst_idle (by simpa using hr)).1

/-- CHECK raises an error (R201, R245). -/
theorem Flow.raise (h : Flow s) (hp : s.phase = Phase.check) {e : CmdError}
    (he : checkError s.cmdr s.hlen s.nlen = some e) : Flow (s.raise e) := by
  have hb : s.phase ≠ Phase.idle := by simp [hp]
  obtain ⟨hvalid, holen⟩ := h.busy_results hb
  have hpair := h.pair_zero (by simp [h.errcode_iff.1 (h.working_noerr (.inl hp))])
  have hrst := h.rst_of_busy hb
  cases e <;> constructor <;> simp [State.working, State.checked, hvalid, holen, hpair, hrst, he]

/-- Completion of a command that failed, and of one with no result (R212). -/
theorem Flow.complete (h : Flow s) (hb : s.phase ≠ Phase.idle) : Flow s.complete := by
  have hrst := h.rst_of_busy hb
  have hres : Results s.complete :=
    ⟨h.errcode_iff, h.errcode_ne, h.pair_zero, h.olen_legal, h.err_olen, fun _ => (h.busy_results hb).2⟩
  exact hres.flow_of_idle rfl (by simp) (by simp [hrst])

theorem resultBytes_length {b : Bytes} (h : resultBytes s = some b) :
    b.length = 32 ∨ b.length = 64 ∨ b.length = 217 := by
  unfold resultBytes at h
  split_ifs at h with h1 h2 h3
  · cases h
    simp
  · cases h
    simp
  · cases h
    rw [headerWork_length, headerLen_eq]
    split_ifs <;> simp

/-- Completion of a command with a result (R212). -/
theorem Flow.complete_publish (h : Flow s) (hb : s.phase ≠ Phase.idle) (he : s.err = false) {b : Bytes}
    (hr : resultBytes s = some b) : Flow (s.publish b).complete := by
  have hrst := h.rst_of_busy hb
  have hlen := resultBytes_length hr
  have hres : Results (s.publish b).complete := by
    refine ⟨h.errcode_iff, h.errcode_ne, h.pair_zero, ?_, by simp [he], by simp⟩
    rcases hlen with h | h | h <;> simp [h]
  exact hres.flow_of_idle rfl (by simp) (by simp [hrst])

/-! ### The sequencer's step -/

theorem Flow.exec_phase {i : Instr} (h : Flow s) (hd : decodePhase s.phase = .ok i) (hs : exec i s = .next t) :
    Flow t := by
  have hp := (decodePhase_ok_iff _ _).1 hd
  by_cases hidle : i = .idle
  · subst hidle
    cases hs
    exact h
  by_cases hcheck : i = .check
  · subst hcheck
    have hp : s.phase = Phase.check := (Code.phase.inj hp).symm
    rcases execCheck_cases hs with ⟨e, he, rfl⟩ | ⟨he, rfl⟩
    · exact h.raise hp he
    · exact h.of_lands (by constructor <;> constructor <;> rfl) (by simp [hp]) (h.working_noerr (.inl hp)) he (.copy rfl)
  by_cases hrespond : i = .respond
  · subst hrespond
    have hb : s.phase ≠ Phase.idle := by simp [← Code.phase.inj hp]
    rcases execRespond_cases hs with ⟨-, rfl⟩ | ⟨he, b, hb', rfl⟩ | ⟨-, -, rfl⟩
    · exact h.complete hb
    · exact h.complete_publish hb he hb'
    · exact h.complete hb
  have hw : s.working := by
    cases i <;> simp [encode] at hp hidle hcheck hrespond <;> simp [State.working, ← hp]
  have hb : s.phase ≠ Phase.idle := fun h0 => by simpa [h0] using hw.1
  exact h.of_lands (exec_quiet hp hcheck hrespond hs) hb (h.working_noerr (.inr hw)) (h.working_checked hw)
    (h.exec_lands hw hd hs)

theorem Flow.sequencerStep (h : Flow s) (hs : sequencerStep s = .next t) : Flow t := by
  obtain ⟨i, hd⟩ := decodePhase_ok_of_le h.phase_legal
  exact h.exec_phase hd (sequencerStep_of hd ▸ hs)

end Sys2Proof.Machine
end

section
/-! PROOF. The control invariant under every agent: accesses, held writes and resets (10_state.md R41 to R48,
70_reset_and_hazards.md R270), the bounds of the two counters (R29), then the statements O49 and O50. -/

namespace Sys2Proof.Machine

variable {s t : State}

/-! ### Accesses -/

/-- What a write performed in IDLE does, register by register (R42, R44, R46, R48). -/
theorem performWrite_cases (s : State) (w : RegWrite) :
    s.performWrite w = s.accept w.v ∨ s.performWrite w = { s with nonce := w.v } ∨
    s.performWrite w = s.pushHeader w.v ∨ s.performWrite w = s.pushWide w.v ∨ s.performWrite w = s := by
  unfold State.performWrite
  split <;> simp

theorem Flow.accept (s : State) (w : Word) (hr : s.rst = false) : Flow (s.accept w) := by
  constructor <;> simp [State.working, hr]

/-- A step of the schedule, the queue of held writes or the reads leaves the flow of control, RST being released. -/
theorem Flow.reschedule (h : Flow s) (hr : s.rst = false) (ts : List Turn) (ws : List RegWrite)
    (os : List Observation) : Flow { s with turns := ts, held := ws, observed := os } :=
  { h with rst_idle := fun hr' => by simp [hr] at hr' }

theorem Flow.withTurns (h : Flow s) (hr : s.rst = false) (ts : List Turn) : Flow (s.withTurns ts) :=
  h.reschedule hr ts s.held s.observed

theorem Flow.withHeld (h : Flow s) (hr : s.rst = false) (ws : List RegWrite) : Flow (s.withHeld ws) :=
  h.reschedule hr s.turns ws s.observed

/-- A write that leaves the result registers leaves the flow of an idle block. -/
theorem Flow.of_idle_congr (h : Flow s) (hp : s.phase = Phase.idle) (hr : s.rst = false) (he : SameErrors s t)
    (ho : SameOutput s t) (hpt : t.phase = s.phase) (hrt : t.rst = s.rst) : Flow t :=
  (h.results.congr he ho).flow_of_idle (hpt.trans hp) (fun hv => he.err.trans (h.idle_err hp (ho.valid ▸ hv)))
    (fun hr' => by simp [hrt, hr] at hr')

theorem Flow.performWrite (h : Flow s) (hp : s.phase = Phase.idle) (hr : s.rst = false) (w : RegWrite) :
    Flow (s.performWrite w) := by
  rcases performWrite_cases s w with e | e | e | e | e <;> rw [e]
  case inl => exact .accept s w.v hr
  all_goals exact h.of_idle_congr hp hr ⟨rfl, rfl, rfl, rfl⟩ ⟨rfl, rfl, rfl⟩ rfl rfl

theorem Flow.regWrite (h : Flow s) (hr : s.rst = false) (w : RegWrite) : Flow (s.regWrite w) := by
  by_cases hp : s.phase = Phase.idle
  · rw [regWrite_idle w hp]
    exact h.performWrite hp hr w
  · rw [regWrite_busy w hp]
    exact h.withHeld hr _

theorem Results.assertReset (s : State) : Results s.assertReset := by
  constructor <;> simp

theorem Flow.assertReset (s : State) : Flow s.assertReset :=
  (Results.assertReset s).flow_of_idle (by simp) (by simp) (by simp)

/-- Under reset a turn passes, and may release RST. -/
theorem underReset_eq (s : State) : ∃ ts r, s.underReset = { s with turns := ts, rst := r } := by
  unfold State.underReset
  split
  · exact ⟨s.turns, s.rst, rfl⟩
  · exact ⟨_, false, rfl⟩
  · exact ⟨_, s.rst, rfl⟩

theorem Flow.underReset (h : Flow s) (hr : s.rst = true) : Flow s.underReset := by
  obtain ⟨hp, hh⟩ := h.rst_idle hr
  obtain ⟨ts, r, e⟩ := underReset_eq s
  rw [e]
  exact { h with rst_idle := fun _ => ⟨hp, hh⟩ }

/-! ### The counters I and J -/

/-- I and J take the values 0 to 32 (R29). -/
structure InRange (t : State) : Prop where
  i_le : t.i.toNat ≤ 32
  j_le : t.j.toNat ≤ 32

theorem InRange.congr (h : InRange s) (hi : t.i = s.i) (hj : t.j = s.j) : InRange t :=
  ⟨hi ▸ h.i_le, hj ▸ h.j_le⟩

theorem InRange.withTurns (h : InRange s) (ts : List Turn) : InRange (s.withTurns ts) := h.congr rfl rfl

theorem InRange.withHeld (h : InRange s) (ws : List RegWrite) : InRange (s.withHeld ws) := h.congr rfl rfl

theorem InRange.exec_phase {i : Instr} {p : BitVec 4} (h : InRange s) (hi : encode i = .phase p)
    (hs : exec i s = .next t) : InRange t := by
  cases i
  case getWorkParA | elemIterA | insertNonceA | matmulWorkB | elemIterB | insertNonceBNarrow | insertNonceBWide =>
    cases hi
  case check =>
    rcases execCheck_cases hs with ⟨e, -, rfl⟩ | ⟨-, rfl⟩
    · cases e <;> exact h.congr rfl rfl
    · exact h.congr rfl rfl
  case respond => rcases execRespond_cases hs with ⟨-, rfl⟩ | ⟨-, b, -, rfl⟩ | ⟨-, -, rfl⟩ <;> exact h.congr rfl rfl
  case seed =>
    cases hs
    constructor <;> simp
  case chain =>
    cases hs
    exact ⟨h.i_le, by simp⟩
  case mac =>
    have hi := h.i_le
    rcases exec_mac_position hs with ⟨hj, hj', hi', -⟩ | ⟨-, hi, hj', hi', -⟩ | ⟨-, -, hj', hi', -⟩
    · exact ⟨hi' ▸ hi, by omega⟩
    · exact ⟨by omega, by simp [hj']⟩
    · constructor <;> simp [hi', hj']
  all_goals cases hs; exact h.congr rfl rfl

theorem InRange.sequencerStep (h : InRange s) (hs : sequencerStep s = .next t) : InRange t := by
  cases hd : decodePhase s.phase with
  | ok i => exact h.exec_phase ((decodePhase_ok_iff _ _).1 hd) (sequencerStep_of hd ▸ hs)
  | error e => simp [Machine.sequencerStep, hd] at hs

theorem InRange.performWrite (h : InRange s) (w : RegWrite) : InRange (s.performWrite w) := by
  rcases performWrite_cases s w with e | e | e | e | e <;> rw [e] <;> exact h.congr rfl rfl

theorem InRange.regWrite (h : InRange s) (w : RegWrite) : InRange (s.regWrite w) := by
  by_cases hp : s.phase = Phase.idle
  · rw [regWrite_idle w hp]
    exact h.performWrite w
  · rw [regWrite_busy w hp]
    exact h.congr rfl rfl

/-- The free values of a reset are within the range (log entry 3). -/
theorem InRange.assertReset (s : State) : InRange s.assertReset := by
  have hle (x : Fin 33) : (BitVec.ofNat 6 x).toNat ≤ 32 := by
    rw [BitVec.toNat_ofNat]
    omega
  exact ⟨hle _, hle _⟩

/-! ### The statements -/

theorem Control.of_flow (hf : Flow t) (hr : InRange t) : Control t := { hf with i_le := hr.i_le, j_le := hr.j_le }

theorem Control.inRange (h : Control s) : InRange s := ⟨h.i_le, h.j_le⟩

/-- Settles O49: the flow and the range, agent by agent. -/
theorem everyStepKeepsControl : Obligations.EveryStepKeepsControl := by
  intro s t hc hs
  have hf := hc.toFlow
  have hrange := hc.inRange
  rcases step_cases s with ⟨hr, e⟩ | ⟨ts, -, -, e⟩ | ⟨w, ws, hr, hp, -, e⟩ |
    ⟨hr, -, ⟨ts, w, -, e⟩ | ⟨ts, o, e⟩ | ⟨ts, -, e⟩ | ⟨ts, e⟩⟩ <;> rw [e] at hs
  case inr.inr.inr.inr.inr.inr =>
    exact .of_flow ((hf.withTurns hr ts).sequencerStep hs) ((hrange.withTurns ts).sequencerStep hs)
  all_goals obtain rfl := Host.Outcome.next.inj hs
  · obtain ⟨ts, r, hu⟩ := underReset_eq s
    exact .of_flow (hf.underReset hr) (hu ▸ hrange.congr rfl rfl)
  · exact .of_flow (Flow.assertReset (s.withTurns ts)) (InRange.assertReset (s.withTurns ts))
  · exact .of_flow ((hf.withHeld hr ws).performWrite hp hr w) ((hrange.withHeld ws).performWrite w)
  · exact .of_flow ((hf.withTurns hr ts).regWrite hr w) ((hrange.withTurns ts).regWrite w)
  · exact .of_flow (hf.reschedule hr ts s.held _) (hrange.congr rfl rfl)
  · exact .of_flow (hf.withTurns hr ts) (hrange.withTurns ts)

/-- Settles O50: every other step answers by its form, and the sequencer's because PHASE decodes and MAC is in range. -/
theorem noStepStops : Obligations.NoStepStops := by
  intro s hc
  rcases step_cases s with ⟨-, h⟩ | ⟨ts, -, -, h⟩ | ⟨w, ws, -, -, -, h⟩ |
    ⟨hr, -, ⟨ts, w, -, h⟩ | ⟨ts, o, h⟩ | ⟨ts, -, h⟩ | ⟨ts, h⟩⟩
  case inr.inr.inr.inr.inr.inr =>
    rw [h]
    exact (hc.toFlow.withTurns hr ts).sequencerStep_next
  all_goals exact ⟨_, h⟩

end Sys2Proof.Machine
end

section
/-! PROOF. The data invariant (41_diffusion_engine.md R151, 42_header_codec.md R172 to R177, 43_sequencer.md R205, R206):
what it asks in each phase, that every micro-operation hands it on to the next phase, then the statement O51. -/

namespace Sys2Proof.Machine

variable {hash : Hash} {s t : State}

/-! ### What the data invariant asks, phase by phase -/

/-- Through the rounds (R151): the header copy, the seed, and the accumulators of the finished rounds. -/
structure Engine (hash : Hash) (t : State) : Prop where
  work : t.headerWork = t.headerIn
  row : t.row = hash t.headerIn
  acc_done : ∀ k (hk : k < 32), k < t.i.toNat → t.acc[k] = roundSum t.row (column hash t.row k)

theorem Tracks.engine (h : Tracks hash s) (h5 : 5 ≤ s.phase.toNat) (h7 : s.phase.toNat ≤ 7) : Engine hash s :=
  ⟨h.work_copy (by omega) (by omega), h.row_seed h5 h7, fun k hk => h.acc_done k hk h5 h7⟩

/-- Nothing is asked in IDLE, CHECK and COPY. -/
theorem Tracks.of_le_two (h : t.phase.toNat ≤ 2) : Tracks hash t := by
  have hp : t.phase = Phase.idle ∨ t.phase = Phase.check ∨ t.phase = Phase.copy := by bv_omega
  rcases hp with hp | hp | hp <;> constructor <;> simp [hp]

theorem Tracks.of_copied (hp : t.phase = Phase.patch ∨ t.phase = Phase.seed) (h : t.headerWork = t.headerIn) :
    Tracks hash t := by
  rcases hp with hp | hp <;> constructor <;> simp [hp, h]

theorem Tracks.of_chain (hp : t.phase = Phase.chain) (he : Engine hash t)
    (hcol : t.col = columnBefore hash t.row t.i.toNat) (hzero : ∀ k (hk : k < 32), t.i.toNat ≤ k → t.acc[k] = 0#32) :
    Tracks hash t := by
  constructor
  case work_copy => exact fun _ _ => he.work
  case row_seed => exact fun _ _ => he.row
  case chain_col => exact fun _ => hcol
  case acc_done => exact fun k hk _ _ => he.acc_done k hk
  case acc_zero => simpa [hp] using hzero
  all_goals simp [hp]

theorem Tracks.of_mac (hp : t.phase = Phase.mac) (he : Engine hash t) (hcol : t.col = column hash t.row t.i.toNat)
    (hrun : ∀ hk : t.i.toNat < 32, t.acc[t.i.toNat] = partialSum t.row t.col t.j.toNat)
    (hzero : ∀ k (hk : k < 32), t.i.toNat < k → t.acc[k] = 0#32) : Tracks hash t := by
  constructor
  case work_copy => exact fun _ _ => he.work
  case row_seed => exact fun _ _ => he.row
  case mac_col => exact fun _ => hcol
  case acc_done => exact fun k hk _ _ => he.acc_done k hk
  case acc_running =>
    rintro k hk - rfl
    exact hrun hk
  case acc_zero => simpa [hp] using hzero
  all_goals simp [hp]

theorem Tracks.of_compress (hp : t.phase = Phase.compress) (he : Engine hash t) (hi : t.i.toNat = 32) :
    Tracks hash t := by
  constructor
  case work_copy => exact fun _ _ => he.work
  case row_seed => exact fun _ _ => he.row
  case acc_done => exact fun k hk _ _ => he.acc_done k hk
  case compress_i => exact fun _ => hi
  all_goals simp [hp]

theorem Tracks.of_splice (hp : t.phase = Phase.splice) (hw : t.headerWork = t.headerIn)
    (hwp : t.wp = workPar hash t.headerIn) : Tracks hash t := by
  constructor
  case work_copy => exact fun _ _ => hw
  case wp_done => exact fun _ => hwp
  all_goals simp [hp]

/-- What HASH1 hashes (R205): the spliced header, or the work digest. -/
def hash1Message (hash : Hash) (t : State) : Bytes :=
  if t.op = 2#4 then insertWorkPar t.headerIn (workPar hash t.headerIn).toList else (workPar hash t.headerIn).toList

theorem Tracks.of_hash1 (hp : t.phase = Phase.hash1) (hwp : t.wp = workPar hash t.headerIn)
    (hw : t.op = 2#4 → t.wbuf.toList = insertWorkPar t.headerIn (workPar hash t.headerIn).toList) : Tracks hash t := by
  constructor
  case wp_done => exact fun _ => hwp
  case hash1_work => exact fun _ => hw
  all_goals simp [hp]

theorem Tracks.of_hash2 (hp : t.phase = Phase.hash2) (hd : t.d1 = hash (hash1Message hash t)) : Tracks hash t := by
  constructor
  case hash2_d1 => exact fun _ => hd
  all_goals simp [hp]

/-- The buffer an insertion publishes (R173). -/
def insertedHeader (t : State) : Bytes :=
  if t.op = 3#4 then insertNonceA t.headerIn t.nonce
  else if t.op = 6#4 then insertNonceBNarrow t.headerIn t.nonce else insertNonceBWide t.headerIn t.nbuf.toList

/-- At RESPOND after a success: the part of the invariant that the opcode asks for. -/
theorem Tracks.of_respond (hp : t.phase = Phase.respond) (hc : t.checked)
    (hwp : t.op = 1#4 ∨ t.op = 4#4 → t.wp = workPar hash t.headerIn)
    (hd2 : t.op = 2#4 ∨ t.op = 5#4 → t.d2 = hash (hash (hash1Message hash t)).toList)
    (hw : isInsertion t.op = true → t.headerWork = insertedHeader t) : Tracks hash t := by
  constructor
  case wp_done => simpa [hp] using fun _ => hwp
  case respond_d2 => exact fun _ _ => hd2
  case respond_work => exact fun _ _ => hw
  case respond_error => simp [show checkError t.cmdr t.hlen t.nlen = none from hc]
  all_goals simp [hp]

/-- At RESPOND after a failure. -/
theorem Tracks.of_failed (hp : t.phase = Phase.respond) (he : t.err = true)
    (hr : ∀ e, checkError t.cmdr t.hlen t.nlen = some e → t.response = e.response) : Tracks hash t := by
  constructor
  case respond_error => exact fun _ e hc => ⟨he, hr e hc⟩
  all_goals simp [hp, he]

/-! ### The header codec -/

/-- The first `m` bytes of a buffer after a write that ends within them. -/
theorem slice_writeBytes {n : Nat} (b : Buffer n) (lo m : Nat) (x : Bytes) (hm : lo + x.length ≤ m) (hn : m ≤ n) :
    slice (writeBytes b lo x) 0 m = (slice b 0 m).take lo ++ x ++ (slice b 0 m).drop (lo + x.length) := by
  have hlen : (b.toList.take lo ++ x).length = lo + x.length := by simp; omega
  rw [slice_zero, slice_zero, writeBytes_toList b lo x (by omega), List.take_append,
    List.take_of_length_le (hlen.trans_le hm), hlen, List.take_take, Nat.min_eq_left (by omega), List.drop_take]

theorem Tracks.copy (hp : t.phase = Phase.patch ∨ t.phase = Phase.seed) (h : exec .copy s = .next t) :
    Tracks hash t := by
  cases h
  refine .of_copied hp ?_
  have := slice_writeBytes_prefix s.wbuf s.headerIn (by simp [headerIn_length])
  rwa [headerIn_length] at this

theorem patchedWork_a (h : s.op = 3#4) : patchedWork s = writeBytes s.wbuf 117 (be32 s.nonce) := by
  simp [patchedWork, h]

theorem patchedWork_bNarrow (h : s.op = 6#4) : patchedWork s = writeBytes s.wbuf 28 (be32 s.nonce) := by
  simp [patchedWork, h]

theorem patchedWork_bWide (h : s.op = 7#4) : patchedWork s = writeBytes s.wbuf 0 s.nbuf.toList := by
  simp [patchedWork, h]

theorem patchedWork_other (h : isInsertion s.op = false) : patchedWork s = s.wbuf := by
  simp only [isInsertion, Bool.or_eq_false_iff, decide_eq_false_iff_not] at h
  simp [patchedWork, h]

theorem insertedHeader_a (h : s.op = 3#4) : insertedHeader s = insertNonceA s.headerIn s.nonce := by
  simp [insertedHeader, h]

theorem insertedHeader_bNarrow (h : s.op = 6#4) : insertedHeader s = insertNonceBNarrow s.headerIn s.nonce := by
  simp [insertedHeader, h]

theorem insertedHeader_bWide (h : s.op = 7#4) : insertedHeader s = insertNonceBWide s.headerIn s.nbuf.toList := by
  simp [insertedHeader, h]

/-- PATCH inserts into the header copy (R173 to R176). -/
theorem headerWork_patched (h : isInsertion s.op = true) (hw : s.headerWork = s.headerIn) :
    slice (patchedWork s) 0 (headerLen s.op) = insertedHeader s := by
  have hw : slice s.wbuf 0 (headerLen s.op) = s.headerIn := hw
  have hle := headerLen_le s.op
  rcases (isInsertion_eq_true _).1 h with h3 | h6 | h7
  · have hL : headerLen s.op = 217 := by rw [h3]; rfl
    rw [patchedWork_a h3, insertedHeader_a h3, slice_writeBytes _ _ _ _ (by rw [be32_length, hL]; decide) hle, hw]
    rfl
  · have hL : headerLen s.op = 64 := by rw [h6]; rfl
    rw [patchedWork_bNarrow h6, insertedHeader_bNarrow h6,
      slice_writeBytes _ _ _ _ (by rw [be32_length, hL]; decide) hle, hw]
    rfl
  · have hL : headerLen s.op = 64 := by rw [h7]; rfl
    rw [patchedWork_bWide h7, insertedHeader_bWide h7, slice_writeBytes _ _ _ _ (by simp [hL]) hle, hw]
    simp [insertNonceBWide]

theorem Tracks.patch (ht : Tracks hash s) (hf : Flow s) (hp : s.phase = Phase.patch) (h : exec .patch s = .next t) :
    Tracks hash t := by
  have hins := hf.patch_op hp
  cases h
  have hop (o : BitVec 4) (ho : isInsertion o = false) : ¬ s.op = o := fun e => by simp [e, ho] at hins
  refine .of_respond rfl (hf.working_checked (working_of_phase hp (by decide))) ?_ ?_ ?_
  · rintro (ho | ho)
    · exact absurd ho (hop _ rfl)
    · exact absurd ho (hop _ rfl)
  · rintro (ho | ho)
    · exact absurd ho (hop _ rfl)
    · exact absurd ho (hop _ rfl)
  · exact fun _ => headerWork_patched hins (ht.work_copy (by simp [hp]) (by simp [hp]))

/-- SPLICE on the whole of WBUF is `insert_work_par` (R177). -/
theorem writeBytes_workPar (b : Buffer 217) (d : Digest) :
    (writeBytes b 185 d.toList).toList = insertWorkPar b.toList d.toList := by
  rw [writeBytes_toList _ _ _ (by simp), List.drop_eq_nil_of_le (by simp), List.append_nil]
  rfl

theorem wbuf_of_headerLen {h : Bytes} (hop : s.op = 2#4) (hw : s.headerWork = h) : s.wbuf.toList = h := by
  rw [← hw, State.headerWork, hop]
  exact (slice_full s.wbuf).symm

theorem Tracks.splice (ht : Tracks hash s) (hf : Flow s) (hp : s.phase = Phase.splice)
    (h : exec .splice s = .next t) : Tracks hash t := by
  have hwp := ht.wp_done (.inl hp)
  have hwbuf := wbuf_of_headerLen (hf.splice_op hp) (ht.work_copy (by simp [hp]) (by simp [hp]))
  cases h
  refine .of_hash1 rfl hwp fun _ => ?_
  have e := writeBytes_workPar s.wbuf s.wp
  rw [hwbuf] at e
  exact e.trans (by rw [hwp]; rfl)

/-! ### The engine -/

theorem Tracks.seed (ht : Tracks hash s) (hp : s.phase = Phase.seed) : Tracks hash (seedWith hash s) := by
  have hw := ht.work_copy (by simp [hp]) (by simp [hp])
  refine .of_chain rfl ⟨hw, congrArg hash hw, fun k hk hi => ?_⟩ rfl fun k hk _ => ?_
  · exact absurd hi (Nat.not_lt_zero k)
  · exact Vector.getElem_replicate hk

theorem Tracks.chain (ht : Tracks hash s) (hp : s.phase = Phase.chain) : Tracks hash (chainWith hash s) := by
  obtain ⟨hw, hrow, hdone⟩ := ht.engine (by simp [hp]) (by simp [hp])
  have hzero (k : Nat) (hk : k < 32) (hi : s.i.toNat ≤ k) : s.acc[k] = 0#32 := ht.acc_zero k hk (.inl ⟨hp, hi⟩)
  refine .of_mac rfl ⟨hw, hrow, hdone⟩ ?_ (fun hi => ?_) fun k hk hi => hzero k hk hi.le
  · exact (congrArg (fun c : Digest => hash c.toList) (ht.chain_col hp)).trans (column_eq hash s.row _).symm
  · exact (hzero _ hi le_rfl).trans (partialSum_zero _ _).symm

/-- MAC leaves what it reads, but the accumulator. -/
theorem exec_mac_reads (h : exec .mac s = .next t) :
    t.headerIn = s.headerIn ∧ t.headerWork = s.headerWork ∧ t.row = s.row ∧ t.col = s.col := by
  obtain ⟨_, _, rfl⟩ := execMac_cases h
  exact ⟨headerIn_congr (macAdvance_cmdr _) (macAdvance_hbuf _), headerWork_congr (macAdvance_cmdr _) (macAdvance_wbuf _),
    macAdvance_row _, macAdvance_col _⟩

theorem Tracks.mac (ht : Tracks hash s) (hp : s.phase = Phase.mac) (h : exec .mac s = .next t) : Tracks hash t := by
  obtain ⟨hw, hrow, hdone⟩ := ht.engine (by simp [hp]) (by simp [hp])
  obtain ⟨hhdr, hwork, hr, hc⟩ := exec_mac_reads h
  obtain ⟨hi, hj, hacc⟩ := exec_mac_acc h
  have hcol := ht.mac_col hp
  -- the running accumulator has one more term
  have hrun : t.acc[s.i.toNat] = partialSum s.row s.col (s.j.toNat + 1) := by
    rw [partialSum_succ _ _ _ hj, ← ht.acc_running s.i.toNat hi hp rfl, ← macAcc_self s hi hj]
    exact congrArg (·[s.i.toNat]) hacc
  have hother (k : Nat) (hk : k < 32) (hne : k ≠ s.i.toNat) : t.acc[k] = s.acc[k] := by
    rw [← macAcc_other s hi hj hk hne]
    exact congrArg (·[k]) hacc
  have hengine (hle : t.i.toNat ≤ s.i.toNat ∨ s.j.toNat = 31 ∧ t.i.toNat = s.i.toNat + 1) : Engine hash t := by
    refine ⟨hwork.trans (hw.trans hhdr.symm), by rw [hr, hhdr, hrow], fun k hk hki => ?_⟩
    rw [hr]
    by_cases hki' : k < s.i.toNat
    · exact (hother k hk hki'.ne).trans (hdone k hk hki')
    · obtain ⟨hj31, rfl⟩ : s.j.toNat = 31 ∧ k = s.i.toNat := by omega
      rw [hrun, hj31, partialSum_all, hcol]
  rcases exec_mac_position h with ⟨-, hj', hi', hm⟩ | ⟨hj31, -, -, hi', hm⟩ | ⟨hj31, hi31, -, hi', hm⟩
  · refine .of_mac hm (hengine (.inl (by rw [hi']))) (by rw [hc, hr, hi', hcol]) ?_ fun k hk hki => ?_
    · intro _
      simp only [hi', hr, hc, hj', hrun]
    · rw [hi'] at hki
      exact (hother k hk hki.ne').trans (ht.acc_zero k hk (.inr ⟨hp, hki⟩))
  · refine .of_chain hm (hengine (.inr ⟨hj31, hi'⟩)) ?_ fun k hk hki => ?_
    · rw [hc, hr, hi', hcol]
      rfl
    · have hki : s.i.toNat < k := by omega
      exact (hother k hk hki.ne').trans (ht.acc_zero k hk (.inr ⟨hp, hki⟩))
  · exact .of_compress hm (hengine (.inr ⟨hj31, by simp [hi', hi31]⟩)) (by simp [hi'])

/-- COMPRESS computes `WORK_PAR` of the header (R140, R144). -/
theorem Tracks.wp_compress (ht : Tracks hash s) (hp : s.phase = Phase.compress) :
    hash (serialise s.acc) = workPar hash s.headerIn := by
  obtain ⟨-, hrow, hdone⟩ := ht.engine (by simp [hp]) (by simp [hp])
  rw [serialise_rounds hash s.row s.acc fun k hk => hdone k hk (ht.compress_i hp ▸ hk), hrow]
  rfl

theorem Tracks.compress (ht : Tracks hash s) (hf : Flow s) (hp : s.phase = Phase.compress) :
    Tracks hash (compressWith hash s) := by
  have hops := hf.op_compress hp
  have hwp := ht.wp_compress hp
  have hc : s.checked := hf.working_checked (working_of_phase hp (by decide))
  have htarget := compressTarget_eq hops
  -- the two commands that end here
  have hrespond (ho : s.op = 1#4 ∨ s.op = 4#4) : Tracks hash (compressWith hash s) := by
    refine .of_respond (htarget.trans (if_pos ho)) hc (fun _ => hwp) (fun ho' => ?_) fun ho' => ?_
    · change s.op = 2#4 ∨ s.op = 5#4 at ho'
      rcases ho with ho | ho <;> simp [ho] at ho'
    · change isInsertion s.op = true at ho'
      rcases ho with ho | ho <;> simp [ho, isInsertion] at ho'
  rcases hops with ho | ho | ho | ho
  · exact hrespond (.inl ho)
  · exact .of_splice (htarget.trans (by simp [ho])) (ht.work_copy (by simp [hp]) (by simp [hp])) hwp
  · exact hrespond (.inr ho)
  · refine .of_hash1 (htarget.trans (by simp [ho])) hwp fun ho' => ?_
    change s.op = 2#4 at ho'
    simp [ho] at ho'

/-! ### The hashing phases and CHECK -/

theorem Tracks.hash1 (ht : Tracks hash s) (hf : Flow s) (hp : s.phase = Phase.hash1) :
    Tracks hash (hash1With hash s) := by
  refine .of_hash2 rfl ?_
  change (if s.op = 2#4 then hash s.wbuf.toList else if s.op = 5#4 then hash s.wp.toList else s.d1) =
    hash (hash1Message hash s)
  rcases hf.hash_op (.inl hp) with ho | ho
  · simp [hash1Message, ho, ht.hash1_work hp ho]
  · simp [hash1Message, ho, ht.wp_done (.inr (.inl hp))]

theorem Tracks.hash2 (ht : Tracks hash s) (hf : Flow s) (hp : s.phase = Phase.hash2) :
    Tracks hash (hash2With hash s) := by
  have hd2 : (hash2With hash s).d2 = hash (hash (hash1Message hash s)).toList :=
    congrArg (fun d : Digest => hash d.toList) (ht.hash2_d1 hp)
  refine .of_respond rfl (hf.working_checked (working_of_phase hp (by decide))) (fun ho => ?_) (fun _ => hd2) fun ho => ?_
  · change s.op = 1#4 ∨ s.op = 4#4 at ho
    rcases hf.hash_op (.inr hp) with ho' | ho' <;> simp [ho'] at ho
  · change isInsertion s.op = true at ho
    rcases hf.hash_op (.inr hp) with ho' | ho' <;> simp [ho', isInsertion] at ho

/-- The error registers show the error raised (R245). -/
theorem response_raise (s : State) (e : CmdError) : (s.raise e).response = e.response := by
  cases e <;> rfl

theorem Tracks.raise {e : CmdError} (h : checkError s.cmdr s.hlen s.nlen = some e) : Tracks hash (s.raise e) := by
  have hresponse := response_raise s e
  cases e <;> refine .of_failed rfl rfl fun e' he => ?_
  all_goals
    obtain rfl : _ = e' := Option.some.inj (h.symm.trans he)
    exact hresponse

/-! ### Every step -/

theorem Tracks.exec_phase {i : Instr} (ht : Tracks Config.hash s) (hf : Flow s) (hd : decodePhase s.phase = .ok i)
    (hs : exec i s = .next t) : Tracks Config.hash t := by
  have hi := (decodePhase_ok_iff _ _).1 hd
  have hn := exec_nextPhase hf hd hs
  cases i <;> simp only [encode, Code.phase.injEq, reduceCtorEq] at hi
  case idle => exact .of_le_two (by simp [hn, nextPhase])
  case check =>
    rcases execCheck_cases hs with ⟨e, he, rfl⟩ | ⟨-, rfl⟩
    · exact .raise he
    · exact .of_le_two (by simp)
  case copy =>
    refine .copy ?_ hs
    rw [hn, nextPhase]
    split_ifs <;> simp
  case patch => exact ht.patch hf hi.symm hs
  case seed =>
    cases hs
    exact ht.seed hi.symm
  case chain =>
    cases hs
    exact ht.chain hi.symm
  case mac => exact ht.mac hi.symm hs
  case compress =>
    cases hs
    exact ht.compress hf hi.symm
  case splice => exact ht.splice hf hi.symm hs
  case hash1 =>
    cases hs
    exact ht.hash1 hf hi.symm
  case hash2 =>
    cases hs
    exact ht.hash2 hf hi.symm
  case respond => exact .of_le_two (by simp [hn, nextPhase])

theorem Tracks.sequencerStep (ht : Tracks Config.hash s) (hf : Flow s) (hs : sequencerStep s = .next t) :
    Tracks Config.hash t := by
  obtain ⟨i, hd⟩ := decodePhase_ok_of_le hf.phase_legal
  exact ht.exec_phase hf hd (sequencerStep_of hd ▸ hs)

/-- The data invariant does not read the schedule, the held writes or the requester's observations. -/
theorem Tracks.reschedule (h : Tracks hash s) (ts : List Turn) (ws : List RegWrite) (os : List Observation) :
    Tracks hash { s with turns := ts, held := ws, observed := os } := { h with }

theorem performWrite_phase_le (w : RegWrite) (hp : s.phase = Phase.idle) : (s.performWrite w).phase.toNat ≤ 2 := by
  rcases performWrite_cases s w with e | e | e | e | e <;> simp [e, hp]

/-- Settles O51: a micro-operation hands the invariant on; in IDLE and CHECK, where the other agents lead, it asks
nothing; a busy block is left alone by them. -/
theorem everyStepKeepsTracks : Obligations.EveryStepKeepsTracks := by
  intro s t hc ht hs
  have hf := hc.toFlow
  rcases step_cases s with ⟨hr, e⟩ | ⟨ts, -, -, e⟩ | ⟨w, ws, hr, hp, -, e⟩ |
    ⟨hr, -, ⟨ts, w, -, e⟩ | ⟨ts, o, e⟩ | ⟨ts, -, e⟩ | ⟨ts, e⟩⟩ <;> rw [e] at hs
  case inr.inr.inr.inr.inr.inr =>
    exact Tracks.sequencerStep (ht.reschedule ts s.held s.observed) (hf.withTurns hr ts) hs
  all_goals obtain rfl := Host.Outcome.next.inj hs
  · obtain ⟨ts, r, hu⟩ := underReset_eq s
    exact .of_le_two (by simp [hu, (hf.rst_idle hr).1])
  · exact .of_le_two (by simp)
  · exact .of_le_two (performWrite_phase_le w hp)
  · by_cases hp : s.phase = Phase.idle
    · rw [regWrite_idle (s := s.withTurns ts) w hp]
      exact .of_le_two (performWrite_phase_le w hp)
    · rw [regWrite_busy (s := s.withTurns ts) w hp]
      exact ht.reschedule ts _ s.observed
  · exact ht.reschedule ts s.held _
  · exact ht.reschedule ts s.held s.observed

end Sys2Proof.Machine
end

section
/-! PROOF. The command-level function (43_sequencer.md R222) against CHECK and RESPOND: an error of CHECK is the function's
error, the result RESPOND publishes is the function's result, then the statements O52 and O56. -/

namespace Sys2Proof.Machine

variable {s t : State}

/-! ### The tests of CHECK as the function's tests -/

/-- The errors of CHECK (R201, R240, R241). -/
theorem checkError_eq_some {w h n : Word} {e : CmdError} (hc : checkError w h n = some e) :
    (illegalWord w = true ∧ e = .illegalCmd) ∨
    (illegalWord w = false ∧ h.toNat ≠ headerLen (opField w) ∧
      e = .sizeMismatch (BitVec.ofNat 32 (headerLen (opField w))) h) ∨
    (illegalWord w = false ∧ h.toNat = headerLen (opField w) ∧ opField w = 7#4 ∧ n.toNat ≠ 32 ∧
      e = .sizeMismatch 32#32 n) := by
  cases hw : illegalWord w with
  | true =>
    rw [checkError_of_illegal _ _ hw] at hc
    exact .inl ⟨rfl, (Option.some.inj hc).symm⟩
  | false =>
    by_cases hh : h.toNat = headerLen (opField w)
    · have hwide : opField w = 7#4 ∧ n.toNat ≠ 32 := by
        by_contra hne
        have hnone := (checkError_eq_none w h n).2 ⟨hw, hh, fun h7 => by_contra fun h32 => hne ⟨h7, h32⟩⟩
        simp [hnone] at hc
      rw [checkError_of_wideLen_ne hw hh hwide.1 hwide.2] at hc
      exact .inr (.inr ⟨rfl, hh, hwide.1, hwide.2, (Option.some.inj hc).symm⟩)
    · rw [checkError_of_headerLen_ne n hw hh] at hc
      exact .inr (.inl ⟨rfl, hh, (Option.some.inj hc).symm⟩)

/-- The expected length as the function writes it (R222). -/
theorem headerLen_word {w : Word} (h : illegalWord w = false) :
    (if w = 1#32 ∨ w = 2#32 ∨ w = 3#32 then 217 else 64) = headerLen (opField w) := by
  rcases legal_cases h with h | h | h | h | h | h | h <;> rw [h] <;> rfl

theorem opField_eq_iff {w : Word} (h : illegalWord w = false) {n : Nat} (hn : n < 16) :
    opField w = BitVec.ofNat 4 n ↔ w = BitVec.ofNat 32 n := by
  rw [op_eq_iff _ n hn, opField_of_legal w h, ← BitVec.toNat_inj, BitVec.toNat_ofNat, Nat.mod_eq_of_lt (by omega)]

/-- A command that fails in CHECK: the function gives the same error (R201, R222). -/
theorem command_of_error (hash : Hash) {x : Inputs} {e : CmdError} (h : checkError x.w x.hl x.nl = some e) :
    command hash x = e.response := by
  rcases checkError_eq_some h with ⟨hw, rfl⟩ | ⟨hw, hh, rfl⟩ | ⟨hw, hh, h7, hn, rfl⟩
  · have hrange : ¬ (1 ≤ x.w.toNat ∧ x.w.toNat ≤ 7) := fun hr => by simp [(illegalWord_eq_false _).2 hr] at hw
    exact if_pos hrange
  all_goals
    have hrange := (illegalWord_eq_false _).1 hw
    rw [command, if_neg (not_not.2 hrange)]
    simp only [headerLen_word hw]
  · rw [if_pos hh]
    rfl
  · have hnl : x.nl ≠ 32#32 := fun hc => hn (by rw [hc]; rfl)
    rw [if_neg (not_not.2 hh), if_pos ⟨(opField_eq_iff hw (n := 7) (by decide)).1 h7, hnl⟩]
    rfl

/-- A command that passes CHECK (R222): the function's result by the word. -/
theorem command_of_passed (hash : Hash) {x : Inputs} (h : checkError x.w x.hl x.nl = none) :
    command hash x =
      if x.w = 1#32 ∨ x.w = 4#32 then .ok (workPar hash x.hb).toList
      else if x.w = 2#32 then .ok (hash (hash (insertWorkPar x.hb (workPar hash x.hb).toList)).toList).toList
      else if x.w = 5#32 then .ok (hash (hash (workPar hash x.hb).toList).toList).toList
      else if x.w = 3#32 then .ok (insertNonceA x.hb x.n)
      else if x.w = 6#32 then .ok (insertNonceBNarrow x.hb x.n)
      else .ok (insertNonceBWide x.hb x.nb) := by
  obtain ⟨hw, hh, hn⟩ := (checkError_eq_none _ _ _).1 h
  have hwide : ¬ (x.w = 7#32 ∧ x.nl ≠ 32#32) := fun ⟨h7, hne⟩ =>
    hne (BitVec.eq_of_toNat_eq (hn ((opField_eq_iff hw (n := 7) (by decide)).2 h7)))
  rw [command, if_neg (not_not.2 ((illegalWord_eq_false _).1 hw))]
  simp only [headerLen_word hw]
  rw [if_neg (not_not.2 hh), if_neg hwide]

theorem passed_of_command_ok {hash : Hash} {x : Inputs} {b : Bytes} (h : command hash x = .ok b) :
    checkError x.w x.hl x.nl = none := by
  cases hc : checkError x.w x.hl x.nl with
  | none => rfl
  | some e =>
    rw [command_of_error hash hc] at h
    cases e <;> cases h

/-- Every command but `INSERT_NONCE_B_WIDE` passes CHECK by the length of its header alone (R201). -/
theorem checkError_eq_none_iff_hlen {w : Word} (hw : illegalWord w = false) (h7 : opField w ≠ 7#4) (h n : Word) :
    checkError w h n = none ↔ h.toNat = headerLen (opField w) := by
  simp [checkError_eq_none, hw, h7]

/-! ### The inputs and the response -/

/-- Past CHECK the stored header is the whole header (R94, R222). -/
theorem inputs_hb (h : s.checked) : (s.inputs s.cmdr).hb = s.headerIn := by
  obtain ⟨-, hh, -⟩ := (checkError_eq_none _ _ _).1 h
  have hle : s.hlen.toNat ≤ 217 := hh ▸ headerLen_le _
  rw [State.headerIn, State.op, ← hh, ← Nat.min_eq_left hle]
  rfl

/-- Past CHECK of `INSERT_NONCE_B_WIDE` the stored wide nonce is the whole one. -/
theorem inputs_nb (h : s.checked) (ho : s.op = 7#4) : (s.inputs s.cmdr).nb = s.nbuf.toList := by
  obtain ⟨-, -, hn⟩ := (checkError_eq_none _ _ _).1 h
  have hn : s.nlen.toNat = 32 := hn ho
  rw [State.inputs, hn]
  exact slice_full s.nbuf

theorem response_of_success (he : s.err = false) : s.response = .ok (slice s.obuf 0 s.olen.toNat) := by
  simp [State.response, he]

theorem publish_olen_toNat (s : State) {b : Bytes} (hb : b.length ≤ 217) : (s.publish b).olen.toNat = b.length := by
  rw [publish_olen, BitVec.toNat_ofNat]
  omega

theorem response_publish {b : Bytes} (he : s.err = false) (hb : b.length ≤ 217) :
    (s.publish b).complete.response = .ok b := by
  rw [response_of_success (by simpa using he), complete_obuf, complete_olen, publish_olen_toNat s hb, publish_obuf,
    slice_writeBytes_prefix _ _ hb]

theorem cmdr_of_op (h : s.checked) {n : Nat} (hn : n < 16) (ho : s.op = BitVec.ofNat 4 n) :
    s.cmdr = BitVec.ofNat 32 n :=
  (opField_eq_iff ((checkError_eq_none _ _ _).1 h).1 hn).1 ho

/-! ### The function's result by the opcode -/

theorem command_workPar (hash : Hash) (h : s.checked) (ho : s.op = 1#4 ∨ s.op = 4#4) :
    command hash (s.inputs s.cmdr) = .ok (workPar hash s.headerIn).toList := by
  have hw : s.cmdr = 1#32 ∨ s.cmdr = 4#32 := ho.imp (cmdr_of_op h (by decide)) (cmdr_of_op h (by decide))
  rw [command_of_passed hash (x := s.inputs s.cmdr) h, inputs_hb h]
  exact if_pos hw

theorem command_elemIter (hash : Hash) (h : s.checked) (ho : s.op = 2#4 ∨ s.op = 5#4) :
    command hash (s.inputs s.cmdr) = .ok (hash (hash (hash1Message hash s)).toList).toList := by
  rw [command_of_passed hash (x := s.inputs s.cmdr) h, inputs_hb h]
  rcases ho with ho | ho
  · simp [State.inputs, cmdr_of_op h (by decide) ho, hash1Message, ho]
  · simp [State.inputs, cmdr_of_op h (by decide) ho, hash1Message, ho]

theorem command_insertion (hash : Hash) (h : s.checked) (ho : isInsertion s.op = true) :
    command hash (s.inputs s.cmdr) = .ok (insertedHeader s) := by
  rw [command_of_passed hash (x := s.inputs s.cmdr) h, inputs_hb h]
  rcases (isInsertion_eq_true _).1 ho with h3 | h6 | h7
  · simp [State.inputs, cmdr_of_op h (by decide) h3, insertedHeader_a h3]
  · simp [State.inputs, cmdr_of_op h (by decide) h6, insertedHeader_bNarrow h6]
  · rw [inputs_nb h h7]
    simp [State.inputs, cmdr_of_op h (by decide) h7, insertedHeader_bWide h7]

/-! ### RESPOND -/

theorem resultBytes_workPar (ho : s.op = 1#4 ∨ s.op = 4#4) : resultBytes s = some s.wp.toList := if_pos ho

theorem resultBytes_elemIter (ho : s.op = 2#4 ∨ s.op = 5#4) : resultBytes s = some s.d2.toList := by
  rcases ho with ho | ho <;> simp [resultBytes, ho]

theorem resultBytes_insertion (ho : isInsertion s.op = true) : resultBytes s = some s.headerWork := by
  rcases (isInsertion_eq_true _).1 ho with h | h | h <;> simp [resultBytes, h, isInsertion]

/-- The three kinds of legal command, by what they publish (R95). -/
theorem op_result_cases (h : illegalWord s.cmdr = false) :
    (s.op = 1#4 ∨ s.op = 4#4) ∨ (s.op = 2#4 ∨ s.op = 5#4) ∨ isInsertion s.op = true := by
  rw [State.op]
  rcases legal_cases h with h | h | h | h | h | h | h <;> rw [h] <;> decide

/-- What RESPOND publishes after a success is the function's result (R212, R222). -/
theorem Tracks.resultBytes_eq {hash : Hash} (ht : Tracks hash s) (hc : s.checked) (hp : s.phase = Phase.respond)
    (he : s.err = false) : ∃ b, resultBytes s = some b ∧ command hash (s.inputs s.cmdr) = .ok b := by
  rcases op_result_cases ((checkError_eq_none _ _ _).1 hc).1 with ho | ho | ho
  · refine ⟨s.wp.toList, resultBytes_workPar ho, ?_⟩
    rw [command_workPar hash hc ho, ht.wp_done (.inr (.inr ⟨hp, he, ho⟩))]
  · refine ⟨s.d2.toList, resultBytes_elemIter ho, ?_⟩
    rw [command_elemIter hash hc ho, ht.respond_d2 hp he ho]
    rfl
  · refine ⟨s.headerWork, resultBytes_insertion ho, ?_⟩
    rw [command_insertion hash hc ho, ht.respond_work hp he ho]
    rfl

/-- The flow and the data invariant at RESPOND: the response is the function's (R222). -/
theorem Tracks.exec_respond (ht : Tracks Config.hash s) (hf : Flow s) (hp : s.phase = Phase.respond) :
    ∃ t, exec .respond s = .next t ∧ t.valid = true ∧ t.hlen = 0#32 ∧ t.nlen = 0#32 ∧ t.nonce = s.nonce ∧
      t.response = command Config.hash (s.inputs s.cmdr) := by
  have hchecked := hf.respond_checked hp
  cases he : s.err with
  | false =>
    obtain ⟨b, hb, hcmd⟩ := ht.resultBytes_eq (hchecked.1 he) hp he
    have hlen : b.length ≤ 217 := by
      have := resultBytes_length hb
      omega
    exact ⟨(s.publish b).complete, exec_respond_of_result he hb, rfl, rfl, rfl, rfl, (response_publish he hlen).trans hcmd.symm⟩
  | true =>
    cases hc : checkError s.cmdr s.hlen s.nlen with
    | none => simp [hchecked.2 hc] at he
    | some e =>
      have hresponse : s.complete.response = s.response := rfl
      refine ⟨s.complete, exec_respond_of_err he, rfl, rfl, rfl, rfl, ?_⟩
      rw [hresponse, (ht.respond_error hp e hc).2]
      exact (command_of_error Config.hash (x := s.inputs s.cmdr) hc).symm

/-! ### The statements -/

/-- Settles O52: the two invariants at RESPOND. -/
theorem respondAnswersTheCommandFunction : Obligations.RespondAnswersTheCommandFunction :=
  fun _ hc ht hp => ht.exec_respond hc.toFlow hp

/-- Settles O56: a result says that CHECK passed, hence the header's length, and the other command passes with it. -/
theorem elementaryIterationFromWorkPar : Obligations.ElementaryIterationFromWorkPar := by
  intro hash x b
  have h4 := checkError_eq_none_iff_hlen (w := 4#32) (by decide) (by decide) x.hl x.nl
  have h5 := checkError_eq_none_iff_hlen (w := 5#32) (by decide) (by decide) x.hl x.nl
  have h1 := checkError_eq_none_iff_hlen (w := 1#32) (by decide) (by decide) x.hl x.nl
  have h2 := checkError_eq_none_iff_hlen (w := 2#32) (by decide) (by decide) x.hl x.nl
  have matmul (h : x.hl.toNat = 64) : command hash { x with w := 4#32 } = .ok (workPar hash x.hb).toList :=
    command_of_passed hash (x := { x with w := 4#32 }) (h4.2 h)
  refine ⟨⟨fun h => ?_, ?_⟩, fun h => ?_, fun h => ?_⟩
  · have hpassed := passed_of_command_ok h
    have hl := h4.1 hpassed
    exact ⟨hl, (Response.ok.inj ((matmul hl).symm.trans h)).symm⟩
  · rintro ⟨hl, rfl⟩
    exact matmul hl
  · have hpassed := passed_of_command_ok h
    have hl := h4.1 hpassed
    rw [← Response.ok.inj ((matmul hl).symm.trans h)]
    simp [command_of_passed hash (x := { x with w := 5#32 }) (h5.2 hl)]
  · have hpassed := passed_of_command_ok h
    have hl := h1.1 hpassed
    rw [← Response.ok.inj ((command_of_passed hash hpassed).symm.trans h)]
    simp [command_of_passed hash (x := { x with w := 2#32 }) (h2.2 hl), insertWorkPar]

end Sys2Proof.Machine
end

section
/-! PROOF. Runs of a command (43_sequencer.md R219, R220): how many steps a running command still takes, that each step
takes one of them, what stands at the end, then the statements O53, O54 and O55. -/

namespace Sys2Proof.Machine

variable {s t : State} {x : Inputs}

/-! ### The steps still to take -/

/-- The steps after COMPRESS, by the opcode (R219). -/
def stepsAfterCompress (op : BitVec 4) : Nat := if op = 2#4 then 4 else if op = 5#4 then 3 else 1

/-- The steps a running command still takes, one term a MAC step (R219); 0 in IDLE. -/
def remaining (s : State) : Nat :=
  match s.phase.toNat with
  | 1 =>
    if (checkError s.cmdr s.hlen s.nlen).isSome then 2
    else if isInsertion s.op then 4 else 1060 + stepsAfterCompress s.op
  | 2 => if isInsertion s.op then 3 else 1059 + stepsAfterCompress s.op
  | 3 => 2
  | 4 => 1058 + stepsAfterCompress s.op
  | 5 => 33 * (32 - s.i.toNat) + 1 + stepsAfterCompress s.op
  | 6 => (32 - s.j.toNat) + 33 * (31 - s.i.toNat) + 1 + stepsAfterCompress s.op
  | 7 => 1 + stepsAfterCompress s.op
  | 8 => 4
  | 9 => 3
  | 10 => 2
  | 11 => 1
  | _ => 0

theorem stepsAfterCompress_pos (op : BitVec 4) : 1 ≤ stepsAfterCompress op := by
  unfold stepsAfterCompress
  split_ifs <;> omega

theorem remaining_idle (hp : s.phase = Phase.idle) : remaining s = 0 := by
  simp [remaining, hp]

theorem remaining_respond (hp : s.phase = Phase.respond) : remaining s = 1 := by
  simp [remaining, hp]

/-- Only RESPOND is the last step. -/
theorem Flow.two_le_remaining (h : Flow s) (hb : s.phase ≠ Phase.idle) (hr : s.phase ≠ Phase.respond) :
    2 ≤ remaining s := by
  have hle := h.phase_legal
  have htail := stepsAfterCompress_pos s.op
  have hi : s.phase.toNat = 5 → s.i.toNat ≤ 31 := fun hp => h.chain_i (BitVec.eq_of_toNat_eq hp)
  have hj : s.phase.toNat = 6 → s.j.toNat ≤ 31 := fun hp => (h.mac_ij (BitVec.eq_of_toNat_eq hp)).2
  have h0 : s.phase.toNat ≠ 0 := fun hp => hb (BitVec.eq_of_toNat_eq hp)
  have h11 : s.phase.toNat ≠ 11 := fun hp => hr (BitVec.eq_of_toNat_eq hp)
  have hcases : s.phase.toNat = 1 ∨ s.phase.toNat = 2 ∨ s.phase.toNat = 3 ∨ s.phase.toNat = 4 ∨ s.phase.toNat = 5 ∨
      s.phase.toNat = 6 ∨ s.phase.toNat = 7 ∨ s.phase.toNat = 8 ∨ s.phase.toNat = 9 ∨ s.phase.toNat = 10 := by omega
  rcases hcases with hp | hp | hp | hp | hp | hp | hp | hp | hp | hp <;> simp only [remaining, hp]
  case inl | inr.inl => split_ifs <;> omega
  all_goals omega

theorem Flow.exec_remaining {i : Instr} (h : Flow s) (hb : s.phase ≠ Phase.idle)
    (hd : decodePhase s.phase = .ok i) (hs : exec i s = .next t) : remaining t + 1 = remaining s := by
  have hi := (decodePhase_ok_iff _ _).1 hd
  have hn := exec_nextPhase h hd hs
  have hop : t.op = s.op := op_congr (exec_phase_sameRequest hi hs).cmdr
  cases i <;> simp only [encode, Code.phase.injEq, reduceCtorEq] at hi
  case idle => exact absurd hi.symm hb
  case check =>
    cases hc : checkError s.cmdr s.hlen s.nlen with
    | some e => simp [remaining, hn, nextPhase, ← hi, hc]
    | none =>
      simp only [remaining, hn, nextPhase, ← hi, hc, hop]
      simp
      split_ifs <;> omega
  case copy =>
    simp only [remaining, hn, nextPhase, ← hi, hop, ← isInsertion_eq_true]
    split_ifs <;> simp <;> omega
  case seed =>
    cases hs
    simp [remaining, ← hi, State.op]
    omega
  case chain =>
    have hi31 := h.chain_i hi.symm
    cases hs
    simp [remaining, ← hi, State.op]
    omega
  case mac =>
    obtain ⟨hi31, hj31⟩ := h.mac_ij hi.symm
    rcases exec_mac_position hs with ⟨-, hj', hi', ht⟩ | ⟨hj, -, -, hi', ht⟩ | ⟨hj, hi', -, -, ht⟩
    · simp [remaining, ← hi, hj', hi', ht, hop]
      omega
    · simp [remaining, ← hi, hj, hi', ht, hop]
      omega
    · simp [remaining, ← hi, hj, hi', ht, hop]
      omega
  case compress =>
    rcases h.op_compress hi.symm with ho | ho | ho | ho <;>
      simp [remaining, hn, nextPhase, ← hi, ho, stepsAfterCompress]
  all_goals simp [remaining, hn, nextPhase, ← hi]

/-! ### A running command -/

/-- A busy block, no turn left, that keeps the invariants and runs a command with the inputs `x` (R222). -/
structure Running (x : Inputs) (s : State) : Prop where
  flow : Flow s
  tracks : Tracks Config.hash s
  busy : s.phase ≠ Phase.idle
  turns : s.turns = []
  inputs : s.inputs s.cmdr = x

theorem Running.accept (w : Word) (hr : s.rst = false) (ht : s.turns = []) :
    Running (s.inputs w) (s.accept w) :=
  ⟨Flow.accept s w hr, .of_le_two (by simp), by simp, ht, rfl⟩

theorem Running.step_eq (h : Running x s) : ∃ i, decodePhase s.phase = .ok i ∧ step s = exec i s := by
  obtain ⟨i, hd⟩ := decodePhase_ok_of_le h.flow.phase_legal
  have hseq := step_sequencer (h.flow.rst_of_busy h.busy) (.inl ((busy_iff s).2 h.busy)) h.turns
  exact ⟨i, hd, hseq.trans (sequencerStep_of hd)⟩

/-- A step of a running command that is not at RESPOND takes one of the steps left. -/
theorem Running.step_next (h : Running x s) (hp : s.phase ≠ Phase.respond) :
    ∃ t, step s = .next t ∧ Running x t ∧ remaining t + 1 = remaining s := by
  obtain ⟨i, hd, hstep⟩ := h.step_eq
  obtain ⟨t, ht⟩ := h.flow.sequencerStep_next
  rw [sequencerStep_of hd] at ht
  have hi := (decodePhase_ok_iff _ _).1 hd
  have hir : i ≠ .respond := by
    rintro rfl
    exact hp (Code.phase.inj hi).symm
  have hrem := h.flow.exec_remaining h.busy hd ht
  have htwo := h.flow.two_le_remaining h.busy hp
  have hreq := exec_phase_sameRequest hi ht
  obtain ⟨⟨hhlen, hnlen⟩, -⟩ := exec_phase_sameCounts_sameOutput hi hir ht
  refine ⟨t, hstep.trans ht, ⟨h.flow.exec_phase hd ht, h.tracks.exec_phase h.flow hd ht, ?_, ?_, ?_⟩, hrem⟩
  · intro hidle
    rw [remaining_idle hidle] at hrem
    omega
  · rw [hreq.turns, h.turns]
  · rw [← h.inputs, State.inputs, State.inputs, hreq.cmdr, hreq.hbuf, hreq.nbuf, hreq.nonce, hhlen, hnlen]

theorem Running.steps_next (h : Running x s) {n : Nat} (hn : n < remaining s) :
    ∃ t, steps n s = .next t ∧ Running x t ∧ remaining t + n = remaining s := by
  induction n with
  | zero => exact ⟨s, rfl, h, rfl⟩
  | succ n ih =>
    obtain ⟨t, hsteps, ht, hrem⟩ := ih (by omega)
    have hp : t.phase ≠ Phase.respond := fun hp => by
      rw [remaining_respond hp] at hrem
      omega
    obtain ⟨u, hstep, hu, hrem'⟩ := ht.step_next hp
    exact ⟨u, by rw [steps_add n 1 hsteps, steps_succ 0 hstep, steps_zero], hu, by omega⟩

/-- The end of a command (R212, R222): idle, VALID, the inputs consumed, the function's response. -/
structure Ended (x : Inputs) (u : State) : Prop where
  flow : Flow u
  phase : u.phase = Phase.idle
  valid : u.valid = true
  hlen : u.hlen = 0#32
  nlen : u.nlen = 0#32
  nonce : u.nonce = x.n
  response : u.response = command Config.hash x

theorem Running.respond (h : Running x s) (hp : s.phase = Phase.respond) : ∃ u, step s = .next u ∧ Ended x u := by
  obtain ⟨i, hd, hstep⟩ := h.step_eq
  have hi : i = .respond := by
    rw [hp] at hd
    exact (Except.ok.inj hd).symm
  subst hi
  obtain ⟨u, hu, hvalid, hhlen, hnlen, hnonce, hresponse⟩ := h.tracks.exec_respond h.flow hp
  refine ⟨u, hstep.trans hu, h.flow.exec_phase hd hu, exec_nextPhase h.flow hd hu, hvalid, hhlen, hnlen, ?_, ?_⟩
  · rw [hnonce, ← h.inputs]
    rfl
  · rw [hresponse, h.inputs]

theorem Running.ends (h : Running x s) : ∃ u, steps (remaining s) s = .next u ∧ Ended x u := by
  have hpos : 1 ≤ remaining s := by
    by_cases hp : s.phase = Phase.respond
    · rw [remaining_respond hp]
    · exact (h.flow.two_le_remaining h.busy hp).trans' (by decide)
  obtain ⟨t, hsteps, ht, hrem⟩ := h.steps_next (n := remaining s - 1) (by omega)
  have hp : t.phase = Phase.respond := by
    by_contra hp
    have := ht.flow.two_le_remaining ht.busy hp
    omega
  obtain ⟨u, hstep, hu⟩ := ht.respond hp
  refine ⟨u, ?_, hu⟩
  rw [show remaining s = remaining s - 1 + 1 by omega, steps_add _ 1 hsteps, steps_succ 0 hstep, steps_zero]

/-- Acceptance leaves the counted steps to take (R219). -/
theorem remaining_accept (s : State) (w : Word) : remaining (s.accept w) = commandSteps (s.inputs w) := by
  have hop : (s.accept w).op = opField w := rfl
  have hrem : remaining (s.accept w) = if (checkError w s.hlen s.nlen).isSome then 2
      else if isInsertion (opField w) then 4 else 1060 + stepsAfterCompress (opField w) := rfl
  rw [hrem, commandSteps]
  simp only [State.inputs]
  cases hc : checkError w s.hlen s.nlen with
  | some e => rfl
  | none =>
    rcases legal_cases ((checkError_eq_none _ _ _).1 hc).1 with h | h | h | h | h | h | h <;> rw [h] <;> rfl

/-- A command accepted in IDLE and left alone (R219, R220, R222). -/
theorem accept_ends (w : Word) (hr : s.rst = false) (ht : s.turns = []) :
    ∃ u, steps (commandSteps (s.inputs w)) (s.accept w) = .next u ∧ Ended (s.inputs w) u := by
  rw [← remaining_accept]
  exact (Running.accept w hr ht).ends

theorem commandSteps_le (x : Inputs) : commandSteps x ≤ 1064 := by
  unfold commandSteps
  split
  · decide
  · split_ifs <;> decide

/-! ### What the registers show at the end -/

theorem response_of_failed (he : s.err = true) :
    s.response = if s.errcode = 1#2 then .sizeMismatch s.expected s.actual else .illegalCmd := if_pos he

/-- The flow of control fixes the result registers by the response (R32, R222). -/
theorem Flow.of_response_ok (h : Flow s) {b : Bytes} (hr : s.response = .ok b) :
    s.err = false ∧ s.errcode = 0#2 ∧ s.expected = 0#32 ∧ s.actual = 0#32 ∧ s.olen.toNat = b.length ∧
      slice s.obuf 0 s.olen.toNat = b := by
  cases he : s.err with
  | true =>
    rw [response_of_failed he] at hr
    split_ifs at hr
  | false =>
    rw [response_of_success he] at hr
    have hslice := Response.ok.inj hr
    have hcode := h.errcode_iff.1 he
    obtain ⟨hexpected, hactual⟩ := h.pair_zero (by simp [hcode])
    have hle : s.olen.toNat ≤ 217 := by rcases h.olen_legal with e | e | e | e <;> simp [e]
    refine ⟨rfl, hcode, hexpected, hactual, ?_, hslice⟩
    rw [← hslice, slice_length _ _ _ hle, Nat.sub_zero]

theorem Flow.of_response_sizeMismatch (h : Flow s) {e a : Word} (hr : s.response = .sizeMismatch e a) :
    s.err = true ∧ s.errcode = 1#2 ∧ s.expected = e ∧ s.actual = a ∧ s.olen = 0#8 := by
  cases he : s.err with
  | false =>
    rw [response_of_success he] at hr
    cases hr
  | true =>
    rw [response_of_failed he] at hr
    split_ifs at hr with hcode
    obtain ⟨rfl, rfl⟩ := Response.sizeMismatch.inj hr
    exact ⟨rfl, hcode, rfl, rfl, h.err_olen he⟩

theorem Flow.of_response_illegalCmd (h : Flow s) (hr : s.response = .illegalCmd) :
    s.err = true ∧ s.errcode = 2#2 ∧ s.expected = 0#32 ∧ s.actual = 0#32 ∧ s.olen = 0#8 := by
  cases he : s.err with
  | false =>
    rw [response_of_success he] at hr
    cases hr
  | true =>
    rw [response_of_failed he] at hr
    split_ifs at hr with hcode
    obtain ⟨hexpected, hactual⟩ := h.pair_zero hcode
    exact ⟨rfl, (h.errcode_of_err he).resolve_left hcode, hexpected, hactual, h.err_olen he⟩

/-- The OUT window shows the bytes below OLEN (R47). -/
theorem outRead_eq_getD (s : State) (k : Fin 256) : s.outRead k = (slice s.obuf 0 s.olen.toNat).getD k 0#8 := by
  rw [State.outRead, slice_zero]
  split_ifs with hk
  · simp [List.getD_eq_getElem?_getD, List.getElem?_take_of_lt hk]
  · rw [List.getD_eq_default]
    simp only [List.length_take]
    omega

/-- Equal responses show equal result registers and equal OUT bytes (R225). -/
theorem Flow.visible_eq (hs : Flow s) (ht : Flow t) (h : s.response = t.response) :
    s.err = t.err ∧ s.errcode = t.errcode ∧ s.expected = t.expected ∧ s.actual = t.actual ∧ s.olen = t.olen ∧
      ∀ k, s.outRead k = t.outRead k := by
  have hcleared (hs0 : s.olen = 0#8) (ht0 : t.olen = 0#8) (k : Fin 256) : s.outRead k = t.outRead k := by
    rw [outRead_of_le (by simp [hs0]), outRead_of_le (by simp [ht0])]
  cases hr : t.response with
  | ok b =>
    obtain ⟨e1, e2, e3, e4, e5, e6⟩ := hs.of_response_ok (h.trans hr)
    obtain ⟨f1, f2, f3, f4, f5, f6⟩ := ht.of_response_ok hr
    refine ⟨e1.trans f1.symm, e2.trans f2.symm, e3.trans f3.symm, e4.trans f4.symm,
      BitVec.eq_of_toNat_eq (e5.trans f5.symm), fun k => ?_⟩
    rw [outRead_eq_getD, outRead_eq_getD, e6, f6]
  | sizeMismatch x a =>
    obtain ⟨e1, e2, e3, e4, e5⟩ := hs.of_response_sizeMismatch (h.trans hr)
    obtain ⟨f1, f2, f3, f4, f5⟩ := ht.of_response_sizeMismatch hr
    exact ⟨e1.trans f1.symm, e2.trans f2.symm, e3.trans f3.symm, e4.trans f4.symm, e5.trans f5.symm, hcleared e5 f5⟩
  | illegalCmd =>
    obtain ⟨e1, e2, e3, e4, e5⟩ := hs.of_response_illegalCmd (h.trans hr)
    obtain ⟨f1, f2, f3, f4, f5⟩ := ht.of_response_illegalCmd hr
    exact ⟨e1.trans f1.symm, e2.trans f2.symm, e3.trans f3.symm, e4.trans f4.symm, e5.trans f5.symm, hcleared e5 f5⟩

/-! ### The statements -/

/-- Settles O53: the count is what acceptance leaves to take; before its end the command is still running. -/
theorem everyCommandEnds : Obligations.EveryCommandEnds := by
  intro s w _ hr ht
  refine ⟨?_, fun n hn => ?_, commandSteps_le _⟩
  · obtain ⟨u, hsteps, hu⟩ := accept_ends w hr ht
    exact ⟨u, hsteps, hu.phase, hu.valid⟩
  · obtain ⟨t, hsteps, ht, -⟩ := (Running.accept w hr ht).steps_next (remaining_accept s w ▸ hn)
    exact ⟨t, hsteps, (busy_iff t).2 ht.busy, (ht.flow.busy_results ht.busy).1⟩

/-- Settles O54: the response at the end is the function's, and the flow reads the registers off it. -/
theorem commandComputesItsFunction : Obligations.CommandComputesItsFunction := by
  intro w s hp hr ht
  have haccept := regWrite_cmd_idle w hp
  obtain ⟨u, hsteps, hu⟩ := accept_ends w hr ht
  refine ⟨s.accept w, u, haccept, fun i hi => haccept ▸ exec_command s hi, hsteps, hu.phase, hu.valid, ?_, ?_, ?_,
    hu.hlen, hu.nlen, hu.nonce⟩
  · exact fun b hb => hu.flow.of_response_ok (hu.response.trans hb)
  · exact fun e a he => hu.flow.of_response_sizeMismatch (hu.response.trans he)
  · exact fun hi => hu.flow.of_response_illegalCmd (hu.response.trans hi)

/-- Settles O55: the same inputs, hence the same count and the same response. -/
theorem commandsArePure : Obligations.CommandsArePure := by
  intro s s' w _ hr ht _ hr' ht' hx
  obtain ⟨u, hsteps, hu⟩ := accept_ends w hr ht
  obtain ⟨u', hsteps', hu'⟩ := accept_ends w hr' ht'
  rw [← hx] at hsteps' hu'
  exact ⟨_, u, u', hsteps, hsteps', hu.phase, hu'.phase, hu.valid, hu'.valid,
    hu.flow.visible_eq hu'.flow (hu.response.trans hu'.response.symm)⟩

end Sys2Proof.Machine
end

section
/-! PROOF. Commands that fail (60_exceptions.md R242 to R247, 30_encoding.md R93, 70_reset_and_hazards.md R275): the two
steps from a failing CHECK to IDLE, then the statements O12, O18, O43 and O48. -/

namespace Sys2Proof.Machine

variable {s : State} {e : CmdError}

/-! ### What raising an error leaves, whatever the error -/

theorem raise_phase (s : State) (e : CmdError) : (s.raise e).phase = Phase.respond := by cases e <;> rfl

theorem raise_err (s : State) (e : CmdError) : (s.raise e).err = true := by cases e <;> rfl

theorem raise_olen (s : State) (e : CmdError) : (s.raise e).olen = s.olen := by cases e <;> rfl

theorem raise_sameRequest (s : State) (e : CmdError) : SameRequest s (s.raise e) := by
  cases e <;> constructor <;> rfl

theorem step_phase {i : Instr} {p : BitVec 4} (hp : s.phase = p) (hi : encode i = .phase p) (hb : p ≠ Phase.idle)
    (hr : s.rst = false) (ht : s.turns = []) : step s = exec i s := by
  subst hp
  rw [step_sequencer hr (.inl ((busy_iff s).2 hb)) ht, sequencerStep_of ((decodePhase_ok_iff _ _).2 hi)]

/-- A failing CHECK and its RESPOND (R201, R212, R247). -/
theorem steps_two_of_error (hp : s.phase = Phase.check) (hr : s.rst = false) (ht : s.turns = [])
    (he : checkError s.cmdr s.hlen s.nlen = some e) : steps 2 s = .next (s.raise e).complete := by
  have hreq := raise_sameRequest s e
  have hcheck : step s = .next (s.raise e) :=
    (step_phase (i := .check) hp rfl (by decide) hr ht).trans (exec_check_of_error he)
  have hrespond : step (s.raise e) = .next (s.raise e).complete :=
    (step_phase (i := .respond) (raise_phase s e) rfl (by decide) (hreq.rst.trans hr) (hreq.turns.trans ht)).trans
      (exec_respond_of_err (raise_err s e))
  rw [steps_succ 1 hcheck, steps_succ 0 hrespond, steps_zero]

/-- A command that fails, from its acceptance on. -/
theorem steps_two_accept {w : Word} (hr : s.rst = false) (ht : s.turns = [])
    (he : checkError w s.hlen s.nlen = some e) : steps 2 (s.accept w) = .next ((s.accept w).raise e).complete :=
  steps_two_of_error rfl hr ht he

theorem illegalWord_of_encode {i : Instr} {w : Word} (h : encode i = .cmd w) : illegalWord w = false := by
  cases i <;> simp only [encode, Code.cmd.injEq, reduceCtorEq] at h <;> subst h <;> rfl

/-! ### The statements -/

/-- Settles O12: the write is accepted, and the word fails the first test. -/
theorem illegalWordEndsInIllegalCmd : Obligations.IllegalWordEndsInIllegalCmd := by
  intro s w hw hp hr hh ht
  have hill : illegalWord w = true := by
    rw [← Bool.not_eq_false, illegalWord_eq_false]
    exact hw
  have haccept : step s = .next ((s.withTurns []).accept w) := step_regWrite_idle hr hp hh ht
  rw [steps_succ 2 haccept, steps_two_accept (s := s.withTurns []) hr rfl (checkError_of_illegal _ _ hill), hp]
  rfl

/-- Settles O18: the failing branch of RESPOND. -/
theorem respondAfterFailurePublishesNothing : Obligations.RespondAfterFailurePublishesNothing :=
  fun s he => ⟨s.complete, exec_respond_of_err he, rfl, rfl, rfl, rfl, rfl⟩

/-- Settles O43: no header is pushed, so every command fails the length test. -/
theorem firstCommandWithoutHeaderFails : Obligations.FirstCommandWithoutHeaderFails := by
  intro i w hi
  have hw := illegalWord_of_encode hi
  have hlen := headerLen_of_legal hw
  have hne : (0#32).toNat ≠ headerLen (opField w) := by
    rw [hlen]
    split_ifs <;> decide
  have hexec : exec i State.reset = .next (State.reset.accept w) := exec_command State.reset hi
  refine ⟨_, _, hexec, steps_two_accept rfl rfl (checkError_of_headerLen_ne 0#32 hw hne), rfl, rfl, ?_⟩
  refine (response_raise (State.reset.accept w) _).trans ?_
  rw [hlen]
  split_ifs <;> rfl

/-- Settles O48: the two steps raise and complete, and both have their frames. -/
theorem failedCommandComputesNothing : Obligations.FailedCommandComputesNothing := by
  intro s e hc hp hr ht he
  have holen := (hc.busy_results (by simp [hp])).2
  exact ⟨_, steps_two_of_error hp hr ht he, rfl, raise_err s e, (raise_olen s e).trans holen, rfl, rfl, rfl,
    response_raise s e, by cases e <;> rfl⟩

end Sys2Proof.Machine
end

section
/-! PROOF. The reset input (70_reset_and_hazards.md R270, R272; 10_state.md R50), what clears VALID and the counters, then
the statements O40, O41, O42 and O47. -/

namespace Sys2Proof.Machine

variable {s t : State}

/-! ### What shows after a reset -/

/-- With every readable register cleared in IDLE, every register reads 0. -/
theorem regRead_cleared (hb : s.busy = false) (hv : s.valid = false) (he : s.err = false) (hc : s.errcode = 0#2)
    (hn : s.nonce = 0#32) (hh : s.hlen = 0#32) (hw : s.nlen = 0#32) (hx : s.expected = 0#32) (ha : s.actual = 0#32)
    (ho : s.olen = 0#8) (n : Fin 16) : s.regRead n = 0#32 := by
  unfold State.regRead
  split
  case h_1 => simp [State.status, hb, hv, he, hc, flag]
  case h_2 => exact hn
  case h_3 => exact hh
  case h_4 => exact hw
  case h_5 => exact hx
  case h_6 => exact ha
  case h_7 => simp [ho]
  case h_8 => rfl

theorem outRead_cleared (h : s.olen = 0#8) (k : Fin 256) : s.outRead k = 0#8 :=
  outRead_of_le (by simp [h])

/-! ### What clears VALID and the counters -/

/-- The clauses of R270 on what a step from `s` to `t` may clear. -/
structure ClearsRightly (s t : State) : Prop where
  valid : s.valid = true → t.valid = false → t.rst = true ∨ (s.phase = Phase.idle ∧ t.phase = Phase.check)
  hlen : s.hlen ≠ 0#32 → t.hlen = 0#32 → t.rst = true ∨ (s.phase = Phase.respond ∧ t.phase = Phase.idle)
  nlen : s.nlen ≠ 0#32 → t.nlen = 0#32 → t.rst = true ∨ (s.phase = Phase.respond ∧ t.phase = Phase.idle)

theorem ClearsRightly.of_same (hv : t.valid = s.valid) (hh : t.hlen = s.hlen) (hn : t.nlen = s.nlen) :
    ClearsRightly s t :=
  ⟨fun h h' => by simp [hv, h] at h', fun h h' => absurd (hh ▸ h') h, fun h h' => absurd (hn ▸ h') h⟩

theorem ClearsRightly.of_reset (h : t.rst = true) : ClearsRightly s t :=
  ⟨fun _ _ => .inl h, fun _ _ => .inl h, fun _ _ => .inl h⟩

theorem ClearsRightly.performWrite (hp : s.phase = Phase.idle) (w : RegWrite) :
    ClearsRightly s (s.performWrite w) := by
  rcases performWrite_cases s w with e | e | e | e | e <;> rw [e]
  · exact ⟨fun _ _ => .inr ⟨hp, rfl⟩, fun h h' => absurd h' h, fun h h' => absurd h' h⟩
  · exact .of_same rfl rfl rfl
  · exact ⟨fun h h' => by simp [h] at h', fun _ h' => absurd h' (countUp_ne_zero _), fun h h' => absurd h' h⟩
  · exact ⟨fun h h' => by simp [h] at h', fun h h' => absurd h' h, fun _ h' => absurd h' (countUp_ne_zero _)⟩
  · exact .of_same rfl rfl rfl

theorem ClearsRightly.sequencerStep (hf : Flow s) (h : sequencerStep s = .next t) : ClearsRightly s t := by
  obtain ⟨i, hd⟩ := decodePhase_ok_of_le hf.phase_legal
  rw [sequencerStep_of hd] at h
  have hi := (decodePhase_ok_iff _ _).1 hd
  by_cases hr : i = .respond
  · subst hr
    have hend : s.phase = Phase.respond ∧ t.phase = Phase.idle := ⟨(Code.phase.inj hi).symm, exec_nextPhase hf hd h⟩
    exact ⟨fun _ hv => by simp [(exec_respond_output h).1] at hv, fun _ _ => .inr hend, fun _ _ => .inr hend⟩
  · obtain ⟨⟨hhlen, hnlen⟩, hvalid, -, -⟩ := exec_phase_sameCounts_sameOutput hi hr h
    exact .of_same hvalid hhlen hnlen

/-! ### The statements -/

/-- Settles O40: the values `assertReset` writes; the free values of I and J are in range. -/
theorem resetAbandonsEverything : Obligations.ResetAbandonsEverything := by
  intro s ts hr ht
  have hread (n : Fin 16) : (s.withTurns ts).assertReset.regRead n = 0#32 := by
    apply regRead_cleared <;> simp [State.busy]
  have hout (k : Fin 256) : (s.withTurns ts).assertReset.outRead k = 0#8 := outRead_cleared (by simp) k
  have hc : Control (s.withTurns ts).assertReset :=
    .of_flow (Flow.assertReset (s.withTurns ts)) (InRange.assertReset (s.withTurns ts))
  refine ⟨_, step_assertReset hr ht, ?_⟩
  simp [State.busy, State.done, hread, hout, hc]

/-- Settles O41: the turn is taken, and only a release changes RST. -/
theorem assertedResetBlocksEverything : Obligations.AssertedResetBlocksEverything := by
  intro s u ts hr ht
  rw [step_rst hr, State.underReset, ht]
  cases u
  case releaseReset => rfl
  all_goals
    change _ = Host.Outcome.next { s with turns := ts, rst := true }
    rw [← hr]

/-- Settles O42: both invariants by their clauses at IDLE, the rest by the values. -/
theorem resetState : Obligations.ResetState := by
  have hres : Results State.reset := by constructor <;> decide
  have hf : Flow State.reset := hres.flow_of_idle rfl (fun _ => rfl) (fun _ => rfl)
  refine ⟨.of_flow hf ⟨by decide, by decide⟩, .of_le_two (by decide), ?_, outRead_cleared rfl, rfl, rfl, rfl, rfl, rfl, rfl⟩
  apply regRead_cleared <;> rfl

/-- Settles O47: agent by agent. -/
theorem onlyTheseStepsClear : Obligations.OnlyTheseStepsClear := by
  intro s t hc hs
  have hf := hc.toFlow
  suffices h : ClearsRightly s t from ⟨h.valid, h.hlen, h.nlen⟩
  rcases step_cases s with ⟨hr, e⟩ | ⟨ts, -, -, e⟩ | ⟨w, ws, hr, hp, -, e⟩ |
    ⟨hr, -, ⟨ts, w, -, e⟩ | ⟨ts, o, e⟩ | ⟨ts, -, e⟩ | ⟨ts, e⟩⟩ <;> rw [e] at hs
  case inr.inr.inr.inr.inr.inr =>
    obtain ⟨valid, hlen, nlen⟩ := ClearsRightly.sequencerStep (hf.withTurns hr ts) hs
    exact ⟨valid, hlen, nlen⟩
  all_goals obtain rfl := Host.Outcome.next.inj hs
  · obtain ⟨ts, r, hu⟩ := underReset_eq s
    rw [hu]
    exact .of_same rfl rfl rfl
  · exact .of_reset (by simp)
  · obtain ⟨valid, hlen, nlen⟩ := ClearsRightly.performWrite (s := s.withHeld ws) hp w
    exact ⟨valid, hlen, nlen⟩
  · by_cases hp : s.phase = Phase.idle
    · rw [regWrite_idle (s := s.withTurns ts) w hp]
      obtain ⟨valid, hlen, nlen⟩ := ClearsRightly.performWrite (s := s.withTurns ts) hp w
      exact ⟨valid, hlen, nlen⟩
    · rw [regWrite_busy (s := s.withTurns ts) w hp]
      exact .of_same rfl rfl rfl
  · exact .of_same rfl rfl rfl
  · exact .of_same rfl rfl rfl

end Sys2Proof.Machine
end

section
/-! PROOF. The header codec (42_header_codec.md R172 to R182): its functions as bytes laid over the header, its
micro-operations byte by byte, then the statements O17, O19, O20, O21 and O22. -/

namespace Sys2Proof.Machine

variable {s t : State}

/-! ### The codec functions lay bytes over the header -/

theorem bytes_ext {a b : Bytes} (hl : a.length = b.length) (h : ∀ k, k < a.length → a.getD k 0#8 = b.getD k 0#8) :
    a = b := by
  refine List.ext_getElem hl fun k h1 h2 => ?_
  have := h k h1
  rwa [List.getD_eq_getElem _ _ h1, List.getD_eq_getElem _ _ h2] at this

/-- Laying bytes over a range erases what was laid within it before (R178, R182). -/
theorem overlay_overlay (l s s' : Bytes) {lo lo' : Nat} (h : lo' ≤ lo) (h' : lo + s.length ≤ lo' + s'.length) :
    overlay (overlay l lo s) lo' s' = overlay l lo' s' := by
  refine bytes_ext (by simp only [length_overlay]) fun k hk => ?_
  simp only [length_overlay] at hk
  rw [overlay_getD _ _ _ _ (by rwa [length_overlay]), overlay_getD _ _ _ _ hk, overlay_getD _ _ _ _ hk]
  split_ifs
  · rfl
  · omega
  · rfl

theorem be32_getD_sub (v : Word) {lo k : Nat} (h : lo ≤ k ∧ k < lo + 4) :
    (be32 v).getD (k - lo) 0#8 = BitVec.ofNat 8 (v.toNat / 256 ^ (lo + 3 - k)) := by
  rw [be32_getD _ _ (by omega), show 3 - (k - lo) = lo + 3 - k by omega]

/-- One byte of a big-endian number laid over from `lo` on (R64, R65). -/
theorem overlay_be32_getD {l : Bytes} (lo : Nat) (v : Word) {k : Nat} (hk : k < l.length) :
    (overlay l lo (be32 v)).getD k 0#8 =
      if lo ≤ k ∧ k < lo + 4 then BitVec.ofNat 8 (v.toNat / 256 ^ (lo + 3 - k)) else l.getD k 0#8 := by
  rw [overlay_getD _ _ _ _ hk, be32_length]
  split_ifs with h
  · exact be32_getD_sub v h
  · rfl

theorem insertNonceA_eq {h : Bytes} (n : Word) (hh : h.length = 217) : insertNonceA h n = overlay h 117 (be32 n) :=
  (overlay_eq_append h 117 (be32 n) (by rw [be32_length]; omega)).symm

theorem insertNonceBNarrow_eq {h : Bytes} (n : Word) (hh : h.length = 64) :
    insertNonceBNarrow h n = overlay h 28 (be32 n) :=
  (overlay_eq_append h 28 (be32 n) (by rw [be32_length]; omega)).symm

theorem insertNonceBWide_eq {h w : Bytes} (hh : h.length = 64) (hw : w.length = 32) :
    insertNonceBWide h w = overlay h 0 w := by
  rw [overlay_eq_append h 0 w (by omega), hw]
  simp [insertNonceBWide]

theorem insertWorkPar_eq {h d : Bytes} (hh : h.length = 217) (hd : d.length = 32) :
    insertWorkPar h d = overlay h 185 d := by
  rw [overlay_eq_append h 185 d (by omega), List.drop_eq_nil_of_le (by omega), List.append_nil]
  rfl

/-- Settles O22: lengths, bytes and replacements are those of laying bytes over a header. -/
theorem codecFunctionsChangeTheirBytesOnly : Obligations.CodecFunctionsChangeTheirBytesOnly := by
  refine ⟨fun h n m hh => ?nonceA, fun h d hh hd => ?workPar, fun h w n hh hw => ?nonceB⟩
  case nonceA =>
    have hlen : (insertNonceA h n).length = 217 := by rw [insertNonceA_eq n hh, length_overlay, hh]
    refine ⟨hlen, fun k hk => ?_, ?_⟩
    · rw [insertNonceA_eq n hh, overlay_be32_getD _ _ (by omega)]
    · rw [insertNonceA_eq m hlen, insertNonceA_eq n hh, insertNonceA_eq m hh,
        overlay_overlay _ _ _ le_rfl (by simp only [be32_length]; omega)]
  case workPar =>
    refine ⟨by rw [insertWorkPar_eq hh hd, length_overlay, hh], fun k hk => ?_⟩
    rw [insertWorkPar_eq hh hd, overlay_getD _ _ _ _ (by omega)]
    exact if_congr (by omega) rfl rfl
  case nonceB =>
    have hlen : (insertNonceBNarrow h n).length = 64 := by rw [insertNonceBNarrow_eq n hh, length_overlay, hh]
    refine ⟨hlen, by rw [insertNonceBWide_eq hh hw, length_overlay, hh], fun k hk => ?_, fun k hk => ?_, ?_⟩
    · rw [insertNonceBNarrow_eq n hh, overlay_be32_getD _ _ (by omega)]
    · rw [insertNonceBWide_eq hh hw, overlay_getD _ _ _ _ (by omega)]
      exact if_congr (by omega) rfl rfl
    · rw [insertNonceBWide_eq hlen hw, insertNonceBNarrow_eq n hh, insertNonceBWide_eq hh hw,
        overlay_overlay _ _ _ (by omega) (by rw [be32_length]; omega)]

/-! ### The micro-operations, byte by byte -/

theorem slice_zero_getD {n : Nat} (b : Buffer n) (m k : Nat) (hk : k < n) (hm : k < m) :
    (slice b 0 m).getD k 0#8 = b[k] := by
  rw [slice_zero, List.getD_eq_getElem?_getD, List.getElem?_take_of_lt hm, ← List.getD_eq_getElem?_getD,
    toList_getD b k hk]

theorem writeBytes_be32_getElem {n : Nat} (b : Buffer n) (lo : Nat) (v : Word) (k : Nat) (hk : k < n) :
    (writeBytes b lo (be32 v))[k] =
      if lo ≤ k ∧ k < lo + 4 then BitVec.ofNat 8 (v.toNat / 256 ^ (lo + 3 - k)) else b[k] := by
  rw [writeBytes_getElem, be32_length]
  split_ifs with h
  · exact be32_getD_sub v h
  · rfl

/-- Settles O19: the copied slice is HBUF's. -/
theorem copyCopiesTheHeader : Obligations.CopyCopiesTheHeader := by
  refine fun s => ⟨_, rfl, fun k hk => ?_, ?_, rfl⟩
  · refine (writeBytes_getElem s.wbuf 0 s.headerIn k hk).trans ?_
    rw [headerIn_length]
    by_cases h : k < headerLen s.op
    · rw [if_pos (by omega), if_pos h]
      exact slice_zero_getD s.hbuf _ k hk h
    · rw [if_neg (by omega), if_neg h]
  · simp only [goto_phase, isInsertion_eq_true]

/-- Settles O20: one insertion command after the other, then the opcodes that insert nothing. -/
theorem patchWritesTheNonce : Obligations.PatchWritesTheNonce := by
  refine fun s => ⟨_, rfl, fun k hk => ?_, rfl, rfl⟩
  change (patchedWork s)[k] = _
  by_cases h3 : s.op = 3#4
  · simp only [patchedWork_a h3, writeBytes_be32_getElem, h3]
    simp
  by_cases h6 : s.op = 6#4
  · simp only [patchedWork_bNarrow h6, writeBytes_be32_getElem, h6]
    simp
  by_cases h7 : s.op = 7#4
  · simp only [patchedWork_bWide h7, writeBytes_getElem, h7]
    simp
  · simp only [patchedWork_other (s := s) (by simp [isInsertion, h3, h6, h7]), h3, h6, h7]
    simp

/-- Settles O21: the write of WP's 32 bytes reaches the end of WBUF. -/
theorem spliceEmbedsTheWorkPar : Obligations.SpliceEmbedsTheWorkPar := by
  refine fun s => ⟨_, rfl, fun k hk => ?_, rfl, rfl⟩
  refine (writeBytes_getElem s.wbuf 185 s.wp.toList k hk).trans (if_congr ?_ rfl rfl)
  rw [Vector.length_toList]
  omega

theorem publish_obuf_getElem (s : State) (b : Bytes) (k : Nat) (hk : k < 217) :
    (s.publish b).obuf[k] = if k < b.length then b.getD k 0#8 else s.obuf[k] := by
  simp [writeBytes_getElem]

/-- The length of a result as R95 lists it. -/
theorem headerLen_insertion {op : BitVec 4} (h : isInsertion op = true) :
    headerLen op = if op = 3#4 then 217 else if op = 6#4 ∨ op = 7#4 then 64 else 32 := by
  rcases (isInsertion_eq_true _).1 h with h | h | h <;> rw [h] <;> rfl

/-- The result by the kind of command, byte by byte (R95, R212). -/
theorem resultBytes_of_legal (h : illegalWord s.cmdr = false) : ∃ b, resultBytes s = some b ∧
    b.length = (if s.op = 3#4 then 217 else if s.op = 6#4 ∨ s.op = 7#4 then 64 else 32) ∧
    ∀ k (hk : k < 217), k < b.length → b.getD k 0#8 =
      if s.op = 1#4 ∨ s.op = 4#4 then s.wp.toList.getD k 0#8
      else if s.op = 2#4 ∨ s.op = 5#4 then s.d2.toList.getD k 0#8 else s.wbuf[k] := by
  rcases op_result_cases h with ho | ho | ho
  · refine ⟨_, resultBytes_workPar ho, ?_, fun k hk _ => (if_pos ho).symm⟩
    rcases ho with ho | ho <;> simp [ho]
  · refine ⟨_, resultBytes_elemIter ho, ?_, fun k hk _ => ?_⟩
    all_goals rcases ho with ho | ho <;> simp [ho]
  · refine ⟨_, resultBytes_insertion ho, (headerWork_length s).trans (headerLen_insertion ho), fun k hk hkl => ?_⟩
    rw [headerWork_length] at hkl
    refine (slice_zero_getD s.wbuf _ k hk hkl).trans ?_
    rcases (isInsertion_eq_true _).1 ho with h | h | h <;> simp [h]

/-- Settles O17: the branch of RESPOND that publishes, with the result's length and bytes. -/
theorem respondPublishesTheResult : Obligations.RespondPublishesTheResult := by
  intro s he hw
  obtain ⟨b, hb, hlen, hbytes⟩ := resultBytes_of_legal hw
  have hle : b.length ≤ 217 := by rw [hlen]; split_ifs <;> decide
  have holen : (s.publish b).complete.olen.toNat = b.length := publish_olen_toNat s hle
  refine ⟨_, exec_respond_of_result he hb, holen.trans hlen, fun k hk => ?_, rfl, rfl, rfl, rfl, rfl, rfl⟩
  rw [holen]
  refine (publish_obuf_getElem s b k hk).trans ?_
  by_cases hkl : k < b.length
  · rw [if_pos hkl, if_pos hkl, hbytes k hk hkl]
  · rw [if_neg hkl, if_neg hkl]

end Sys2Proof.Machine
end

section
/-! PROOF. The diffusion engine and the hashing phases (41_diffusion_engine.md R141 to R155, 43_sequencer.md R205, R206):
a round as a sum of its terms that never wraps, the columns as iterated hashes, then the statements O15, O16, O23, O24,
O25, O27, O29, O30 and O31. -/

namespace Sys2Proof.Machine

/-! ### A round as a sum of its terms -/

theorem foldl_accumulate (l : List (Byte × Byte)) (a : Word) :
    l.foldl (fun a p => accumulate a p.1 p.2) a = a + (l.map fun p => macTerm p.1 p.2).sum := by
  induction l generalizing a with
  | nil => simp
  | cons p l ih => rw [List.foldl_cons, ih, List.map_cons, List.sum_cons, accumulate_eq, add_assoc]

theorem sumTerms_eq_sum (l : List (Byte × Byte)) : sumTerms l = (l.map fun p => macTerm p.1 p.2).sum := by
  rw [sumTerms, foldl_accumulate]
  simp

theorem macTerm_toNat_le (r c : Byte) : (macTerm r c).toNat ≤ 65025 := by
  have hr : r.toNat ≤ 255 := by have := r.isLt; omega
  have hc : c.toNat ≤ 255 := by have := c.isLt; omega
  rw [macTerm_toNat]
  exact Nat.mul_le_mul hr hc

/-- No addition of a round's terms wraps (R146). -/
theorem sumTerms_toNat (l : List (Byte × Byte)) (h : l.length ≤ 32) :
    (sumTerms l).toNat = (l.map fun p => p.1.toNat * p.2.toNat).sum ∧ (sumTerms l).toNat ≤ 65025 * l.length := by
  rw [sumTerms_eq_sum]
  induction l with
  | nil => simp
  | cons p l ih =>
    simp only [List.length_cons] at h
    obtain ⟨hsum, hle⟩ := ih (by omega)
    have hterm := macTerm_toNat_le p.1 p.2
    have hadd : (macTerm p.1 p.2 + (l.map fun p => macTerm p.1 p.2).sum).toNat =
        (macTerm p.1 p.2).toNat + ((l.map fun p => macTerm p.1 p.2).sum).toNat := by
      rw [BitVec.toNat_add, Nat.mod_eq_of_lt (by omega)]
    simp only [List.map_cons, List.sum_cons, List.length_cons, hadd, hsum, macTerm_toNat] at hterm hle ⊢
    exact ⟨trivial, by omega⟩

theorem roundSum_toNat_le (row col : Digest) : (roundSum row col).toNat ≤ 2080800 := by
  have hlen : (row.toList.zip col.toList).length = 32 := by simp
  have := (sumTerms_toNat (row.toList.zip col.toList) hlen.le).2
  rwa [hlen] at this

/-! ### The columns -/

/-- The column of a round is the seed hashed so often (R155). -/
theorem column_eq_iterate (hash : Hash) (seed : Digest) (i : Nat) :
    column hash seed i = (fun c : Digest => hash c.toList)^[i + 1] seed := by
  induction i with
  | zero => rfl
  | succ i ih =>
    rw [Function.iterate_succ_apply', ← ih]
    rfl

theorem roundsFrom_getD (hash : Hash) (seed : Digest) {n i : Nat} (hi : i < n) :
    (roundsFrom hash seed n seed).getD i 0#32 = roundSum seed (column hash seed i) := by
  have hlen : i < (roundsFrom hash seed n (columnBefore hash seed 0)).length := by rwa [roundsFrom_length]
  have h := roundsFrom_getElem hash seed seed n 0 i hlen
  rw [Nat.zero_add] at h
  rw [← h]
  exact List.getD_eq_getElem _ _ hlen

/-! ### The statements -/

/-- Settles O15: the two tests of HASH1. -/
theorem hash1HashesTheVariantsMessage : Obligations.Hash1HashesTheVariantsMessage := by
  intro s
  have hd1 : (hash1With Config.hash s).d1 = if s.op = 2#4 then Config.hash s.wbuf.toList
      else if s.op = 5#4 then Config.hash s.wp.toList else s.d1 := rfl
  refine ⟨_, rfl, fun h2 => ?_, fun h5 => ?_, fun h2 h5 => ?_, rfl, rfl⟩
  · rw [hd1, if_pos h2]
  · rw [hd1, h5, if_neg (by decide), if_pos rfl]
  · rw [hd1, if_neg h2, if_neg h5]

/-- Settles O16: by the definition of HASH2. -/
theorem hash2HashesD1 : Obligations.Hash2HashesD1 := fun _ => ⟨_, rfl, rfl, rfl, rfl⟩

/-- Settles O23: by the definition of SEED; every accumulator of the cleared file is 0. -/
theorem seedStartsTheEngine : Obligations.SeedStartsTheEngine := by
  refine fun s => ⟨_, rfl, ?_, rfl, fun k hk => Vector.getElem_replicate hk, rfl, rfl, rfl, rfl⟩
  exact congrArg Config.hash (slice_zero s.wbuf _)

/-- Settles O24: by the definition of CHAIN. -/
theorem chainRehashesTheColumn : Obligations.ChainRehashesTheColumn := fun _ => ⟨_, rfl, rfl, rfl, rfl, rfl⟩

/-- Settles O25: the accumulators MAC leaves, and its three next positions. -/
theorem macAddsOneTerm : Obligations.MacAddsOneTerm := by
  intro s hi hj
  obtain ⟨t, h⟩ : ∃ t, exec .mac s = .next t := ⟨_, exec_mac_of_lt hi hj⟩
  obtain ⟨_, _, hacc⟩ := exec_mac_acc h
  refine ⟨t, h, ?_, fun k hk hne => ?_, fun hj' => ?_, fun hj' hi' => ?_, fun hj' hi' => ?_, exec_mac_frame h⟩
  · simp only [hacc, macAcc_self, accumulate_toNat]
  · simp only [hacc, macAcc_other s hi hj hk hne]
  · rcases exec_mac_position h with ⟨-, hjt, hit, hp⟩ | ⟨hj31, -⟩ | ⟨hj31, -⟩
    case inl => exact ⟨hjt, hit, hp⟩
    all_goals omega
  · rcases exec_mac_position h with ⟨hj31, -⟩ | ⟨-, -, hjt, hit, hp⟩ | ⟨-, hi31, -⟩
    case inr.inl => exact ⟨hjt, hit, hp⟩
    all_goals omega
  · rcases exec_mac_position h with ⟨hj31, -⟩ | ⟨-, hi31, -⟩ | ⟨-, -, hjt, hit, hp⟩
    case inr.inr => exact ⟨hjt, hit, hp⟩
    all_goals omega

/-- Settles O27: by the definition of COMPRESS, its target by the opcode. -/
theorem compressHashesTheAccumulators : Obligations.CompressHashesTheAccumulators := by
  intro s
  have hp : (compressWith Config.hash s).phase = compressTarget s := rfl
  refine ⟨_, rfl, rfl, serialise_length s.acc, fun ho => ?_, fun ho => ?_, fun ho => ?_, rfl⟩
  · exact hp.trans (if_pos ho)
  · rw [hp]
    simp [compressTarget, ho]
  · rw [hp]
    simp [compressTarget, ho]

/-- Settles O29: a round is the exact sum of at most 32 terms of at most 65025. -/
theorem roundSumNeverWraps : Obligations.RoundSumNeverWraps := by
  refine ⟨fun r c => ⟨macTerm_toNat r c, macTerm_toNat_le r c⟩, fun row col n hn => ?terms, fun row col => ?round,
    fun hash seed k hk => ?ser⟩
  case terms => exact (sumTerms_toNat _ (by simp)).1
  case round =>
    have hle := roundSum_toNat_le row col
    refine ⟨(partialSum_all row col).symm, hle, BitVec.eq_of_toNat_eq ?_⟩
    rw [BitVec.extractLsb'_toNat, Nat.shiftRight_eq_div_pow, Nat.div_eq_of_lt (by omega)]
    rfl
  case ser =>
    have hle := roundSum_toNat_le seed (column hash seed k)
    have hk' : k < (roundsFrom hash seed 32 seed).length := by rwa [roundsFrom_length]
    have hround := roundsFrom_getD hash seed hk
    rw [List.getD_eq_getElem _ _ hk'] at hround
    have hbyte := flatMap_be32_getD (roundsFrom hash seed 32 seed) k 0 hk' (by decide)
    rw [hround, be32_getD _ _ (by decide), Nat.div_eq_of_lt (by omega)] at hbyte
    exact hbyte

/-- Settles O30: a sum in a commutative monoid; MAC sets one accumulator. -/
theorem termOrderIsInvisible : Obligations.TermOrderIsInvisible := by
  refine ⟨fun l l' h => ?_, fun l l' => ?_, fun s t k hk h hne => ?_⟩
  · rw [sumTerms_eq_sum, sumTerms_eq_sum]
    exact (h.map _).sum_eq
  · simp only [sumTerms_eq_sum, List.map_append, List.sum_append]
  · obtain ⟨hi, hj, hacc⟩ := exec_mac_acc h
    simp only [hacc, macAcc_other s hi hj hk hne]

/-- Settles O31: the columns by their recursion, the rounds by their columns. -/
theorem columnsInClosedForm : Obligations.ColumnsInClosedForm := fun hash seed =>
  ⟨rfl, fun _ => rfl, column_eq_iterate hash seed, fun n =>
    ⟨roundsFrom_length hash seed n seed, fun _ hi => roundsFrom_getD hash seed hi⟩⟩

end Sys2Proof.Machine
end

section
/-! PROOF. The requester's accesses (10_state.md R40 to R48, R52; 20_memory.md R71, R79): command writes, held writes,
pushes and reads, then the statements O6, O9, O10, O11, O32, O35, O36, O38 and O39. -/

namespace Sys2Proof.Machine

variable {s t : State}

/-! ### Commands and held writes -/

/-- Settles O6: a command's meaning is the write of its word, which the step performs. -/
theorem stepRunsTheCommand : Obligations.StepRunsTheCommand := by
  intro s i w hr hd
  have hi := encode_of_decodeCmd hd
  refine ⟨fun ts ht hb => ?_, fun ws hh hb ht => ?_⟩
  · exact (step_regWrite hr hb ht).trans (exec_command (s.withTurns ts) hi).symm
  · have hp := (busy_eq_false s).1 hb
    rw [step_held hr hp hh ht, ← regWrite_idle (s := s.withHeld ws) _ hp]
    exact (exec_command (s.withHeld ws) hi).symm

/-- Settles O9: the write of the command's word, held. -/
theorem commandIsHeldWhileBusy : Obligations.CommandIsHeldWhileBusy := by
  intro i w s hi hp
  rw [exec_command s hi, regWrite_busy _ hp]
  rfl

/-- Settles O10: the write on the requester's turn, held. -/
theorem writesAreHeldWhileBusy : Obligations.WritesAreHeldWhileBusy :=
  fun _ _ _ hp hr ht => step_regWrite_busy hr hp ht

/-- Settles O11: the step of a held write. -/
theorem heldWriteIsPerformedInIdle : Obligations.HeldWriteIsPerformedInIdle :=
  fun _ _ _ hp hr hh ht => step_held hr hp hh ht

/-! ### Pushes -/

theorem lowByte_eq (v : Word) : v.extractLsb' 0 8 = BitVec.ofNat 8 v.toNat := by
  apply BitVec.eq_of_toNat_eq
  simp

/-- A push into a buffer at the count `c`, dropped when the buffer is full (R46). -/
theorem push_getElem {n : Nat} (b : Buffer n) (c : Nat) (v : Word) (k : Nat) (hk : k < n) :
    (if c < n then writeBytes b c [v.extractLsb' 0 8] else b)[k] = if k = c then BitVec.ofNat 8 v.toNat else b[k] := by
  by_cases hc : c < n
  · rw [if_pos hc, writeBytes_getElem]
    by_cases hkc : k = c
    · subst hkc
      rw [if_pos (by simp), if_pos rfl, Nat.sub_self, ← lowByte_eq]
      rfl
    · rw [if_neg (by simp; omega), if_neg hkc]
  · rw [if_neg hc, if_neg (by omega)]

/-- Settles O35: the push to HBUF, performed. -/
theorem headerPush : Obligations.HeaderPush := fun s v _ hp hr hh ht =>
  ⟨_, step_regWrite_idle hr hp hh ht, countUp_toNat s.hlen, fun k hk => push_getElem s.hbuf s.hlen.toNat v k hk, rfl⟩

/-- Settles O36: the push to NBUF, performed. -/
theorem wideNoncePush : Obligations.WideNoncePush := fun s v _ hp hr hh ht =>
  ⟨_, step_regWrite_idle hr hp hh ht, countUp_toNat s.nlen, fun k hk => push_getElem s.nbuf s.nlen.toNat v k hk, rfl⟩

/-! ### Reads -/

/-- Settles O32: register by register. -/
theorem registerReadMap : Obligations.RegisterReadMap := by
  refine fun s => ⟨fun n hn => regRead_eq_zero s ?_, rfl, rfl, rfl, rfl, rfl, ?_⟩
  · rcases hn with hn | hn | hn | hn
    · exact .inl hn
    · exact .inr hn.ge
    · exact .inr (by rw [hn]; decide)
    · exact .inr (hn.trans' (by decide))
  · have e : s.regRead 7 = s.olen.setWidth 32 := rfl
    rw [e, BitVec.toNat_setWidth, Nat.mod_eq_of_lt (by have := s.olen.isLt; omega)]

/-- Settles O38: a read is the turn taken and one more observation. -/
theorem readsChangeNothing : Obligations.ReadsChangeNothing := by
  intro s r ts hread hr hb ht
  have hstep := step_turn hr hb ht
  cases r with
  | access a =>
    cases a with
    | regRead n =>
      refine ⟨_, _, hstep, rfl, rfl, rfl, fun m hm => ?_, fun k hk => ?_⟩
      · cases hm
        rfl
      · cases hk
    | outRead k =>
      refine ⟨_, _, hstep, rfl, rfl, rfl, fun m hm => ?_, fun k hk => ?_⟩
      · cases hm
      · cases hk
        rfl
    | regWrite w => cases hread
  | sequencer => cases hread
  | assertReset => cases hread
  | releaseReset => cases hread

/-- Past the end of OBUF the window reads 0, whatever OLEN is. -/
theorem outRead_past_end {k : Fin 256} (h : 217 ≤ k.val) : s.outRead k = 0#8 := by
  rw [State.outRead, List.getD_eq_default _ _ (by simpa using h), ite_self]

/-- Settles O39: each register reads a visible one; the OUT bytes are compared below OLEN. -/
theorem internalRegistersAreUnreadable : Obligations.InternalRegistersAreUnreadable := by
  rintro s t ⟨hbusy, hvalid, herr, hcode, hnonce, hhlen, hnlen, hexpected, hactual, holen, hobuf⟩
  refine ⟨fun n => ?_, fun k => ?_⟩
  · simp only [State.regRead, State.status, hbusy, hvalid, herr, hcode, hnonce, hhlen, hnlen, hexpected, hactual, holen]
  · by_cases hk : k.val < s.olen.toNat
    · by_cases hk' : k.val < 217
      · rw [outRead_of_lt hk' hk, outRead_of_lt hk' (holen ▸ hk), hobuf k hk' hk]
      · rw [outRead_past_end (by omega), outRead_past_end (by omega)]
    · rw [outRead_of_le (by omega), outRead_of_le (by rw [← holen]; omega)]

end Sys2Proof.Machine
end

section
/-! PROOF. The encoding of the two formats (30_encoding.md R90 to R93, R100): a code that decodes is the encoding of its
instruction, the rejected codes are the ill-formed ones, then the statements O1, O2 and O4. -/

namespace Sys2Proof.Machine

/-- A well-formed command word is one of the numbers 1 to 7 (R92). -/
theorem cmd_wellFormed_iff (w : Word) : (Code.cmd w).wellFormed = true ↔ 1 ≤ w.toNat ∧ w.toNat ≤ 7 := by
  have hr : w.extractLsb' 4 28 = 0 ↔ w.toNat / 16 = 0 := reservedField_eq_zero w
  have ho : (w.extractLsb' 0 4).toNat = w.toNat % 16 := opField_toNat w
  simp only [Code.wellFormed, Bool.and_eq_true, beq_iff_eq, decide_eq_true_eq, hr, ho]
  omega

theorem decodeCmd_ok_exists_iff (w : Word) : (∃ i, decodeCmd w = .ok i) ↔ 1 ≤ w.toNat ∧ w.toNat ≤ 7 := by
  constructor
  · rintro ⟨i, hi⟩
    have := (decodeCmd_ok_iff w i).1 hi
    omega
  · intro h
    rcases legal_cases ((illegalWord_eq_false w).2 h) with h | h | h | h | h | h | h <;> rw [h] <;> exact ⟨_, rfl⟩

theorem decodePhase_ok_exists_iff (p : BitVec 4) : (∃ i, decodePhase p = .ok i) ↔ p.toNat < 12 := by
  refine ⟨fun ⟨i, hi⟩ => ?_, fun h => decodePhase_ok_of_le (by omega)⟩
  by_contra hp
  rw [(decodePhase_error_iff p .reservedPhase).2 ⟨rfl, by omega⟩] at hi
  cases hi

/-- The decoder accepts the well-formed codes (R92, R93, R100). -/
theorem decode_ok_exists_iff (c : Code) : (∃ i, decode c = .ok i) ↔ c.wellFormed = true := by
  cases c with
  | cmd w => exact (decodeCmd_ok_exists_iff w).trans (cmd_wellFormed_iff w).symm
  | phase p => exact (decodePhase_ok_exists_iff p).trans decide_eq_true_iff.symm

theorem decode_error_exists_iff (c : Code) : (∃ e, decode c = .error e) ↔ c.wellFormed = false := by
  rw [← Bool.not_eq_true, ← decode_ok_exists_iff]
  cases decode c <;> simp

theorem encode_of_decode {c : Code} {i : Instr} (h : decode c = .ok i) : encode i = c := by
  cases c with
  | cmd w => exact encode_of_decodeCmd h
  | phase p => exact (decodePhase_ok_iff p i).1 h

theorem roundTrip : ∀ i : Instr, Laws.RoundTrip.Statement i
  | .getWorkParA => Laws.RoundTrip.getWorkParA
  | .elemIterA => Laws.RoundTrip.elemIterA
  | .insertNonceA => Laws.RoundTrip.insertNonceA
  | .matmulWorkB => Laws.RoundTrip.matmulWorkB
  | .elemIterB => Laws.RoundTrip.elemIterB
  | .insertNonceBNarrow => Laws.RoundTrip.insertNonceBNarrow
  | .insertNonceBWide => Laws.RoundTrip.insertNonceBWide
  | .idle => Laws.RoundTrip.idle
  | .check => Laws.RoundTrip.check
  | .copy => Laws.RoundTrip.copy
  | .patch => Laws.RoundTrip.patch
  | .seed => Laws.RoundTrip.seed
  | .chain => Laws.RoundTrip.chain
  | .mac => Laws.RoundTrip.mac
  | .compress => Laws.RoundTrip.compress
  | .splice => Laws.RoundTrip.splice
  | .hash1 => Laws.RoundTrip.hash1
  | .hash2 => Laws.RoundTrip.hash2
  | .respond => Laws.RoundTrip.respond

/-- Settles O1: instruction by instruction. -/
theorem encodedInstructionDecodes : Obligations.EncodedInstructionDecodes := fun i _ => (roundTrip i).2

/-- Settles O2: the decoder's inversion for both formats, and what it accepts. -/
theorem decodableCodesAreTheEncodings : Obligations.DecodableCodesAreTheEncodings :=
  fun c => ⟨fun _ h => encode_of_decode h, decode_error_exists_iff c⟩

/-- Settles O4: eight fixed words. -/
theorem sampleTableWords : Obligations.SampleTableWords := by
  unfold Obligations.SampleTableWords
  decide

end Sys2Proof.Machine
end
